-- ==== Sys2Proof/Word.lean ====
section
/-! DEFINITION. The word types of the machine: bytes, instruction words, nibbles and twelve-bit addresses
(00_scope.md R6, 30_encoding.md R62). All values are unsigned. -/

namespace Sys2Proof

/-- A register V0 to VF, a memory byte, kk. -/
abbrev Byte := BitVec 8

/-- An instruction word; pc, I and a stack entry have this width too. -/
abbrev Word := BitVec 16

/-- A register selector x or y, the sprite height n, a key number. -/
abbrev Nibble := BitVec 4

/-- An address operand nnn. -/
abbrev Addr := BitVec 12

end Sys2Proof
end

