-- ==== Sys2Proof/Config.lean ====
section
/-! DEFINITION. What the spec leaves to the environment. 00_scope.md R4 fixes every size, so no size is a
parameter; 00_scope.md R5 leaves open the byte RND draws and the order of the host operations. The order is
whatever list of `HostOp` the host applies (Machine/HostOps.lean); the byte is here. The font table of
20_memory.md R42 is a table in Machine/Font.lean, the opcode table of 30_encoding.md R66 one in Decode.lean. -/

namespace Sys2Proof

/-- 00_scope.md R5 (a), 41_alu.md R123: the byte of the k-th draw of RND. It has no body, so nothing can be
proved of its value: every statement about RND holds for every sequence of draws (log entry 1).
DESIGN CHOICE: the draws are numbered by `State.draws`. Safe. -/
opaque Config.rndByte : Nat → Byte

end Sys2Proof
end

