-- ==== Sys2Proof/Machine/State.lean ====
section
/-! DEFINITION. The state record of 10_state.md R10, the mode R21, the faults of 60_exceptions.md R160, and the
state after reset (R30). Plain data throughout. -/

namespace Sys2Proof.Machine

/-- 60_exceptions.md R160: the five faults. The four step-time faults are TAKEN by the step as R164 says: a next
state in mode `Halted`; no step ever answers `Host.Outcome.fault`. Each stops the machine until reset, so a fault
where the hardware went on would be safe. -/
inductive Fault where
  /-- Code 1. Raised by the step at decode, for the words of 30_encoding.md R67. Safe. -/
  | unrecognizedOpcode
  /-- Code 2. Raised by the step at fetch, and by DRW, LD B,Vx, LD [I],Vx and LD Vx,[I] (R162). Safe. -/
  | memoryOutOfBounds
  /-- Code 3. Raised by CALL with SP = 16 (R163). Safe. -/
  | stackOverflow
  /-- Code 4. Raised by RET with SP = 0 (R165). Safe. -/
  | stackUnderflow
  /-- Code 5. Reported by the host operation load for more than 3584 bytes, with no state change (R166); no step
  raises it. Safe. -/
  | romTooLarge
  deriving DecidableEq, Repr

/-- Why the model has no meaning to give. -/
inductive Refusal where
  /-- Raised by `exec` for an instruction that has no meaning yet; no arm does. Safe. -/
  | notModelled (mnemonic : String)
  /-- Raised by the host operation load after a step has been made, for which the spec gives no move
  (60_exceptions.md R172, 93_implementation_defined.md U7; log entry 3). Safe. -/
  | loadNotDefined
  deriving DecidableEq, Repr

/-- 10_state.md R21: the three-state machine. -/
inductive Mode where
  | running
  | waitingForKey (t : Nibble)
  | halted (f : Fault) (a : Word)
  deriving DecidableEq, Repr

/-- 10_state.md R17: 32 rows of 64 one-bit cells, `FB[r][c]` being row r, column c. -/
abbrev Grid := Vector (Vector Bool 64) 32

/-- 20_memory.md R40, as the bytes that differ from the reset content (Machine/Ops.lean, `Memory.wf`). -/
abbrev Memory := List Host.Cell

/-- 10_state.md R10: the whole state of the hardware; `draws` is the model's own. -/
structure State where
  /-- V0 to VF (R11, R12). -/
  v : Vector Byte 16
  /-- I (R13). -/
  index : Word
  /-- pc (R14). -/
  pc : Word
  /-- SP, the count of live stack entries, 0 to 16 (R15). -/
  sp : Fin 17
  /-- STK (R15). -/
  stk : Vector Word 16
  /-- DT (R16). -/
  dt : Byte
  /-- ST (R16). -/
  st : Byte
  /-- FB (R17). -/
  fb : Grid
  /-- dirty (R18). -/
  dirty : Bool
  /-- KEY (R19). -/
  key : Vector Bool 16
  /-- LKV (R20). -/
  lkv : Bool
  /-- LK (R20). -/
  lk : Nibble
  /-- mode (R21). -/
  mode : Mode
  /-- M (R22). -/
  mem : Memory
  /-- How many RND bytes have been drawn: which free value RND takes next (41_alu.md R123). The model's own field;
  DESIGN CHOICE, log entry 1. -/
  draws : Nat
  deriving DecidableEq, Repr

/-- 10_state.md R30: the state after reset. The list `mem` is empty: every byte holds its reset content. -/
def State.reset : State where
  v := Vector.replicate 16 0#8
  index := 0#16
  pc := 0x0200#16
  sp := 0
  stk := Vector.replicate 16 0#16
  dt := 0#8
  st := 0#8
  fb := Vector.replicate 32 (Vector.replicate 64 false)
  dirty := false
  key := Vector.replicate 16 false
  lkv := false
  lk := 0#4
  mode := .running
  mem := []
  draws := 0

end Sys2Proof.Machine
end

