-- ==== Sys2Proof/Machine/Font.lean ====
section
/-! DEFINITION. The font table of 20_memory.md R42, the configuration table the spec asks for. Glyph 7 is the
source's; the spec marks the other fifteen as general knowledge (92_eei_decisions.md D32; log entry 5). -/

namespace Sys2Proof.Machine

/-- R42: glyphs 0 to 7, five bytes each, rows from the top down. -/
def fontLow : List Byte :=
  [0xF0, 0x90, 0x90, 0x90, 0xF0,
   0x20, 0x60, 0x20, 0x20, 0x70,
   0xF0, 0x10, 0xF0, 0x80, 0xF0,
   0xF0, 0x10, 0xF0, 0x10, 0xF0,
   0x90, 0x90, 0xF0, 0x10, 0x10,
   0xF0, 0x80, 0xF0, 0x10, 0xF0,
   0xF0, 0x80, 0xF0, 0x90, 0xF0,
   0xF0, 0x10, 0x20, 0x40, 0x40]

/-- R42: glyphs 8 to F. -/
def fontHigh : List Byte :=
  [0xF0, 0x90, 0xF0, 0x90, 0xF0,
   0xF0, 0x90, 0xF0, 0x10, 0xF0,
   0xF0, 0x90, 0xF0, 0x90, 0x90,
   0xE0, 0x90, 0xE0, 0x90, 0xE0,
   0xF0, 0x80, 0x80, 0x80, 0xF0,
   0xE0, 0x90, 0x90, 0x90, 0xE0,
   0xF0, 0x80, 0xF0, 0x80, 0xF0,
   0xF0, 0x80, 0xF0, 0x80, 0x80]

/-- R42: the 80 font bytes, at 0x000 to 0x04F. -/
def fontBytes : List Byte := fontLow ++ fontHigh

end Sys2Proof.Machine
end

