-- ==== Sys2Proof/Machine/Ops.lean ====
section
/-! DEFINITION. The named operations over memory and registers, raising a fault, and the ways an instruction ends.
20_memory.md R40 to R56, 00_scope.md R7 and R8, 40_step_and_control.md R83, 60_exceptions.md R164. -/

namespace Sys2Proof.Machine

/-! ### Memory -/

/-- 10_state.md R30, 20_memory.md R42: what a byte holds at reset, and so what an address `mem` does not list reads
as: the font at 0x000 to 0x04F, 0 elsewhere. -/
def Memory.initial (a : Nat) : Byte := fontBytes.getD a 0

/-- 20_memory.md R48: the byte last written, else the reset content. Total: the callers check R44's bound first,
for the whole instruction (42_index_memory.md R136). -/
def Memory.read : Memory → Nat → Byte
  | [], a => Memory.initial a
  | c :: m, a => if c.1 = a then c.2 else Memory.read m a

/-- The entry for `a` alone, before the list of what stands above it; none if it is the reset content. -/
def Memory.cons (a : Nat) (b : Byte) (m : Memory) : Memory :=
  if b = Memory.initial a then m else (a, b) :: m

/-- The list with address `a` holding `b`, kept in canonical form. -/
def Memory.insert : Memory → Nat → Byte → Memory
  | [], a, b => Memory.cons a b []
  | c :: m, a, b =>
    if c.1 < a then c :: Memory.insert m a b
    else if c.1 = a then Memory.cons a b m
    else Memory.cons a b (c :: m)

/-- A write of one byte. An address above 4095 does not exist (20_memory.md R44): every caller has checked, and a
write there changes nothing (log entry 6). -/
def Memory.write (m : Memory) (a : Nat) (b : Byte) : Memory :=
  if a < 4096 then Memory.insert m a b else m

/-- 20_memory.md R48: bytes written at consecutive ascending addresses. -/
def Memory.writeBytes : Memory → Nat → List Byte → Memory
  | m, _, [] => m
  | m, a, b :: bs => Memory.writeBytes (Memory.write m a b) (a + 1) bs

/-- 20_memory.md R48: `n` bytes read at consecutive ascending addresses. -/
def Memory.readBytes (m : Memory) (a n : Nat) : List Byte :=
  (List.range n).map fun k => Memory.read m (a + k)

/-- The canonical form: addresses strictly rising and inside the space, no entry equal to the reset content. -/
abbrev Memory.wf (m : Memory) : Prop :=
  m.Pairwise (fun c d => c.1 < d.1) ∧ ∀ c ∈ m, c.1 < 4096 ∧ c.2 ≠ Memory.initial c.1

/-! ### Registers -/

/-- 00_scope.md R7: read of V[x]. -/
def State.getV (s : State) (x : Nibble) : Byte := s.v[x.toNat]'x.isLt

/-- 00_scope.md R7: write of V[x]. -/
def State.setV (x : Nibble) (b : Byte) (s : State) : State := { s with v := s.v.set x.toNat b x.isLt }

/-- Write of the index register I. -/
def State.setIndex (w : Word) (s : State) : State := { s with index := w }

/-- Write of the memory. -/
def State.setMem (m : Memory) (s : State) : State := { s with mem := m }

/-- Write of the delay timer. -/
def State.setDt (b : Byte) (s : State) : State := { s with dt := b }

/-- Write of the sound timer. -/
def State.setSt (b : Byte) (s : State) : State := { s with st := b }

/-- Write of the framebuffer. -/
def State.setFb (g : Grid) (s : State) : State := { s with fb := g }

/-- Write of the dirty flag. -/
def State.setDirty (b : Bool) (s : State) : State := { s with dirty := b }

/-- Write of the valid bit of the last-pressed key. -/
def State.setLkv (b : Bool) (s : State) : State := { s with lkv := b }

/-- Write of the mode. -/
def State.setMode (m : Mode) (s : State) : State := { s with mode := m }

/-- 41_alu.md R123: one more RND byte has been drawn. -/
def State.countDraw (s : State) : State := { s with draws := s.draws + 1 }

/-! ### The call stack -/

/-- 40_step_and_control.md R87: STK[SP] <- w; SP <- SP + 1; asked for only with SP < 16. -/
def State.push (w : Word) (s : State) (h : s.sp.val < 16) : State :=
  { s with stk := s.stk.set s.sp.val w h, sp := ⟨s.sp.val + 1, by omega⟩ }

/-- 40_step_and_control.md R88: STK[SP - 1]; asked for only with SP > 0. -/
def State.top (s : State) (h : 0 < s.sp.val) : Word := s.stk[s.sp.val - 1]'(by omega)

/-- 40_step_and_control.md R88: SP <- SP - 1; the popped entry keeps its value. -/
def State.pop (s : State) : State := { s with sp := ⟨s.sp.val - 1, by omega⟩ }

/-! ### How an instruction ends (40_step_and_control.md R83) -/

/-- Write of the program counter: JP, CALL, RET, JP V0. -/
def State.setPc (w : Word) (s : State) : State := { s with pc := w }

/-- 00_scope.md R7, `next`: pc <- pc + 2. -/
def State.advance (s : State) : State := s.setPc (s.pc + 2#16)

/-- 00_scope.md R7, `skip`: pc <- pc + 4. -/
def State.skip (s : State) : State := s.setPc (s.pc + 4#16)

/-- The end of SE, SNE, SKP and SKNP: `skip` where the condition holds, else `next`. -/
def State.skipIf (c : Bool) (s : State) : State := if c then s.skip else s.advance

/-! ### Taking a fault -/

/-- 60_exceptions.md R164: fault entry. The mode becomes Halted with the fault and its recorded value, every other
piece of state keeps the value it had before the step; nothing is saved anywhere else and control goes nowhere. -/
def State.raise (f : Fault) (a : Word) (s : State) : State := s.setMode (.halted f a)

/-- 60_exceptions.md R164, R168, R181: a step in mode Halted changes nothing. There is no return from a fault. -/
def State.stepHalted (s : State) : State := s

end Sys2Proof.Machine
end

