-- ==== Sys2Proof/Machine/Flags.lean ====
section
/-! DEFINITION. The 0 or 1 results that go to VF (10_state.md R12, 41_alu.md R121, R122). There is no flags
register: VF is V[15]. -/

namespace Sys2Proof.Machine

/-- A flag as the byte VF holds: 1 or 0. -/
def flagByte (c : Bool) : Byte := if c then 1#8 else 0#8

/-- 41_alu.md R121, R116: the carry of an addition, 1 iff a + b > 255. -/
def carryOut (a b : Byte) : Bool := decide (a.toNat + b.toNat > 255)

/-- 41_alu.md R121, R117: no borrow in a - b, 1 iff a ≥ b. -/
def noBorrow (a b : Byte) : Bool := decide (a.toNat ≥ b.toNat)

/-- 41_alu.md R118: the bit SHR shifts out. -/
def lowBit (a : Byte) : Bool := a.getLsbD 0

/-- 41_alu.md R120: the bit SHL shifts out. -/
def highBit (a : Byte) : Bool := a.getLsbD 7

/-- 41_alu.md R122: the result to V[x], then the flag to VF; where x = 0xF the flag is kept and the result is lost.
The caller has read its operands before. -/
def State.setResultAndFlag (x : Nibble) (result : Byte) (flag : Bool) (s : State) : State :=
  (s.setV x result).setV 0xF#4 (flagByte flag)

end Sys2Proof.Machine
end

