-- ==== Sys2Proof/Syntax.lean ====
section
/-! DEFINITION. The 34 instructions of 30_encoding.md R66, one constructor per row of spec/opcode_table.json, in
the order of that table. Operands: `x`, `y` select registers, `kk` is an immediate byte, `nnn` an address, `n` a
sprite height (R62, R63). -/

namespace Sys2Proof

/-- An instruction. The field types have exactly the widths of R62, so every term is well-formed.
SHR and SHL carry the y field of their word, which their meaning ignores (R66, R69). -/
inductive Instr where
  /-- CLS -/
  | cls
  /-- RET -/
  | ret
  /-- JP nnn -/
  | jp (nnn : Addr)
  /-- CALL nnn -/
  | call (nnn : Addr)
  /-- SE Vx,kk -/
  | seImm (x : Nibble) (kk : Byte)
  /-- SNE Vx,kk -/
  | sneImm (x : Nibble) (kk : Byte)
  /-- SE Vx,Vy -/
  | seReg (x y : Nibble)
  /-- SNE Vx,Vy -/
  | sneReg (x y : Nibble)
  /-- LD Vx,kk -/
  | ldImm (x : Nibble) (kk : Byte)
  /-- ADD Vx,kk -/
  | addImm (x : Nibble) (kk : Byte)
  /-- LD Vx,Vy -/
  | ldReg (x y : Nibble)
  /-- OR Vx,Vy -/
  | orReg (x y : Nibble)
  /-- AND Vx,Vy -/
  | andReg (x y : Nibble)
  /-- XOR Vx,Vy -/
  | xorReg (x y : Nibble)
  /-- ADD Vx,Vy -/
  | addReg (x y : Nibble)
  /-- SUB Vx,Vy -/
  | subReg (x y : Nibble)
  /-- SUBN Vx,Vy -/
  | subnReg (x y : Nibble)
  /-- SHR Vx -/
  | shr (x y : Nibble)
  /-- SHL Vx -/
  | shl (x y : Nibble)
  /-- LD I,nnn -/
  | ldI (nnn : Addr)
  /-- JP V0,nnn -/
  | jpV0 (nnn : Addr)
  /-- RND Vx,kk -/
  | rnd (x : Nibble) (kk : Byte)
  /-- DRW Vx,Vy,n -/
  | drw (x y n : Nibble)
  /-- SKP Vx -/
  | skp (x : Nibble)
  /-- SKNP Vx -/
  | sknp (x : Nibble)
  /-- LD Vx,DT -/
  | ldVxDt (x : Nibble)
  /-- LD DT,Vx -/
  | ldDtVx (x : Nibble)
  /-- LD ST,Vx -/
  | ldStVx (x : Nibble)
  /-- LD Vx,K -/
  | ldVxK (x : Nibble)
  /-- ADD I,Vx -/
  | addI (x : Nibble)
  /-- LD F,Vx -/
  | ldF (x : Nibble)
  /-- LD B,Vx -/
  | ldB (x : Nibble)
  /-- LD [I],Vx -/
  | ldMemVx (x : Nibble)
  /-- LD Vx,[I] -/
  | ldVxMem (x : Nibble)
  deriving DecidableEq, Repr

end Sys2Proof
end

