-- ==== Sys2Proof/WellFormed.lean ====
section
/-! DEFINITION. Which words are instructions: 30_encoding.md R67's own list of the illegal words, one check per
row of its table, written with the arithmetic of R62's third column and independently of the decoder. A term of
`Instr` needs no check of its own: its field types have the widths of R62. -/

namespace Sys2Proof

/-- R67, major 0: every word but 0x00E0 and 0x00EE. -/
def illegalMajor0 (w : Word) : Bool :=
  w.toNat / 4096 == 0 && w.toNat != 0x00E0 && w.toNat != 0x00EE

/-- R67, major 5: 5xyN with N ≠ 0. -/
def illegalMajor5 (w : Word) : Bool :=
  w.toNat / 4096 == 5 && w.toNat % 16 != 0

/-- R67, major 8: 8xyN with N in 8, 9, A, B, C, D, F. -/
def illegalMajor8 (w : Word) : Bool :=
  w.toNat / 4096 == 8 && [0x8, 0x9, 0xA, 0xB, 0xC, 0xD, 0xF].contains (w.toNat % 16)

/-- R67, major 9: 9xyN with N ≠ 0. -/
def illegalMajor9 (w : Word) : Bool :=
  w.toNat / 4096 == 9 && w.toNat % 16 != 0

/-- R67, major E: ExKK with KK not in 9E, A1. -/
def illegalMajorE (w : Word) : Bool :=
  w.toNat / 4096 == 0xE && !([0x9E, 0xA1].contains (w.toNat % 256))

/-- R67, major F: FxKK with KK not in 07, 0A, 15, 18, 1E, 29, 33, 55, 65. -/
def illegalMajorF (w : Word) : Bool :=
  w.toNat / 4096 == 0xF &&
    !([0x07, 0x0A, 0x15, 0x18, 0x1E, 0x29, 0x33, 0x55, 0x65].contains (w.toNat % 256))

/-- R67: the word is one of those that raise UnrecognizedOpcode. -/
def illegalWord (w : Word) : Bool :=
  illegalMajor0 w || illegalMajor5 w || illegalMajor8 w || illegalMajor9 w || illegalMajorE w || illegalMajorF w

/-- The word is one of the 34 instructions: the well-formed words. -/
def wellFormedWord (w : Word) : Bool := !illegalWord w

end Sys2Proof
end

