-- ==== Sys2Proof/Decode.lean ====
section
/-! DEFINITION. Decoding and encoding (30_encoding.md R60 to R70). The opcode table R66 stands once, as
`Opcode.pattern`; the decoder searches it and the encoder fills it in, so a pattern the spec would change is
changed in one place (91_not_in_source.md N1 asks for a table that can be replaced). -/

namespace Sys2Proof

/-! ### Fields of a word (R62) -/

/-- R62: the major opcode, w[15:12]. -/
def fieldMajor (w : Word) : Nibble := w.extractLsb' 12 4
/-- R62: x, w[11:8]. -/
def fieldX (w : Word) : Nibble := w.extractLsb' 8 4
/-- R62: y, w[7:4]. -/
def fieldY (w : Word) : Nibble := w.extractLsb' 4 4
/-- R62: n, w[3:0]; the minor opcode of formats XY and XYN stands there too. -/
def fieldN (w : Word) : Nibble := w.extractLsb' 0 4
/-- R62: kk, w[7:0]; the minor opcode of format X stands there too. -/
def fieldKk (w : Word) : Byte := w.extractLsb' 0 8
/-- R62: nnn, w[11:0]. -/
def fieldNnn (w : Word) : Addr := w.extractLsb' 0 12

/-- The high nibble of a byte. -/
def highNibble (b : Byte) : Nibble := b.extractLsb' 4 4
/-- The low nibble of a byte. -/
def lowNibble (b : Byte) : Nibble := b.extractLsb' 0 4

/-- The word with the four nibbles given from the first to the fourth (R6). -/
def wordOfNibbles (d3 d2 d1 d0 : Nibble) : Word := d3 ++ d2 ++ d1 ++ d0
/-- Format NNN of R61. -/
def wordNnn (major : Nibble) (nnn : Addr) : Word := major ++ nnn
/-- Formats XKK and X of R61: a major, x and a low byte (an operand or a minor opcode). -/
def wordXkk (major x : Nibble) (kk : Byte) : Word := major ++ x ++ kk
/-- 20_memory.md R45: the byte at the lower address is bits 15 to 8. -/
def wordOfBytes (first second : Byte) : Word := first ++ second
/-- 20_memory.md R45: the two bytes of a word in the order they stand in memory. -/
def bytesOfWord (w : Word) : List Byte := [w.extractLsb' 8 8, w.extractLsb' 0 8]

/-! ### The opcode table (R66) -/

/-- The rows of R66, named as the constructors of `Instr`. -/
inductive Opcode where
  | cls | ret | jp | call | seImm | sneImm | seReg | sneReg
  | ldImm | addImm | ldReg | orReg | andReg | xorReg | addReg | subReg
  | subnReg | shr | shl | ldI | jpV0 | rnd | drw | skp
  | sknp | ldVxDt | ldDtVx | ldStVx | ldVxK | addI | ldF | ldB
  | ldMemVx | ldVxMem
  deriving DecidableEq, Repr

/-- A pattern of R66: four hexadecimal digits, `some` for a fixed digit and `none` for a letter (a field). -/
structure Pattern where
  d3 : Option Nibble
  d2 : Option Nibble
  d1 : Option Nibble
  d0 : Option Nibble
  deriving DecidableEq, Repr

/-- The pattern column of R66. The spec itself marks every pattern but 6xkk and 8xy4 as general knowledge
(92_eei_decisions.md D1; log entry 5). -/
def Opcode.pattern : Opcode → Pattern
  | .cls => ⟨some 0x0, some 0x0, some 0xE, some 0x0⟩
  | .ret => ⟨some 0x0, some 0x0, some 0xE, some 0xE⟩
  | .jp => ⟨some 0x1, none, none, none⟩
  | .call => ⟨some 0x2, none, none, none⟩
  | .seImm => ⟨some 0x3, none, none, none⟩
  | .sneImm => ⟨some 0x4, none, none, none⟩
  | .seReg => ⟨some 0x5, none, none, some 0x0⟩
  | .sneReg => ⟨some 0x9, none, none, some 0x0⟩
  | .ldImm => ⟨some 0x6, none, none, none⟩
  | .addImm => ⟨some 0x7, none, none, none⟩
  | .ldReg => ⟨some 0x8, none, none, some 0x0⟩
  | .orReg => ⟨some 0x8, none, none, some 0x1⟩
  | .andReg => ⟨some 0x8, none, none, some 0x2⟩
  | .xorReg => ⟨some 0x8, none, none, some 0x3⟩
  | .addReg => ⟨some 0x8, none, none, some 0x4⟩
  | .subReg => ⟨some 0x8, none, none, some 0x5⟩
  | .subnReg => ⟨some 0x8, none, none, some 0x7⟩
  | .shr => ⟨some 0x8, none, none, some 0x6⟩
  | .shl => ⟨some 0x8, none, none, some 0xE⟩
  | .ldI => ⟨some 0xA, none, none, none⟩
  | .jpV0 => ⟨some 0xB, none, none, none⟩
  | .rnd => ⟨some 0xC, none, none, none⟩
  | .drw => ⟨some 0xD, none, none, none⟩
  | .skp => ⟨some 0xE, none, some 0x9, some 0xE⟩
  | .sknp => ⟨some 0xE, none, some 0xA, some 0x1⟩
  | .ldVxDt => ⟨some 0xF, none, some 0x0, some 0x7⟩
  | .ldDtVx => ⟨some 0xF, none, some 0x1, some 0x5⟩
  | .ldStVx => ⟨some 0xF, none, some 0x1, some 0x8⟩
  | .ldVxK => ⟨some 0xF, none, some 0x0, some 0xA⟩
  | .addI => ⟨some 0xF, none, some 0x1, some 0xE⟩
  | .ldF => ⟨some 0xF, none, some 0x2, some 0x9⟩
  | .ldB => ⟨some 0xF, none, some 0x3, some 0x3⟩
  | .ldMemVx => ⟨some 0xF, none, some 0x5, some 0x5⟩
  | .ldVxMem => ⟨some 0xF, none, some 0x6, some 0x5⟩

/-- The instruction a row stands for, with its operands taken from the word by the row's format (R61, R62). -/
def Opcode.build (w : Word) : Opcode → Instr
  | .cls => .cls
  | .ret => .ret
  | .jp => .jp (fieldNnn w)
  | .call => .call (fieldNnn w)
  | .seImm => .seImm (fieldX w) (fieldKk w)
  | .sneImm => .sneImm (fieldX w) (fieldKk w)
  | .seReg => .seReg (fieldX w) (fieldY w)
  | .sneReg => .sneReg (fieldX w) (fieldY w)
  | .ldImm => .ldImm (fieldX w) (fieldKk w)
  | .addImm => .addImm (fieldX w) (fieldKk w)
  | .ldReg => .ldReg (fieldX w) (fieldY w)
  | .orReg => .orReg (fieldX w) (fieldY w)
  | .andReg => .andReg (fieldX w) (fieldY w)
  | .xorReg => .xorReg (fieldX w) (fieldY w)
  | .addReg => .addReg (fieldX w) (fieldY w)
  | .subReg => .subReg (fieldX w) (fieldY w)
  | .subnReg => .subnReg (fieldX w) (fieldY w)
  | .shr => .shr (fieldX w) (fieldY w)
  | .shl => .shl (fieldX w) (fieldY w)
  | .ldI => .ldI (fieldNnn w)
  | .jpV0 => .jpV0 (fieldNnn w)
  | .rnd => .rnd (fieldX w) (fieldKk w)
  | .drw => .drw (fieldX w) (fieldY w) (fieldN w)
  | .skp => .skp (fieldX w)
  | .sknp => .sknp (fieldX w)
  | .ldVxDt => .ldVxDt (fieldX w)
  | .ldDtVx => .ldDtVx (fieldX w)
  | .ldStVx => .ldStVx (fieldX w)
  | .ldVxK => .ldVxK (fieldX w)
  | .addI => .addI (fieldX w)
  | .ldF => .ldF (fieldX w)
  | .ldB => .ldB (fieldX w)
  | .ldMemVx => .ldMemVx (fieldX w)
  | .ldVxMem => .ldVxMem (fieldX w)

/-- All rows, in the order of R66. -/
def opcodes : List Opcode :=
  [.cls, .ret, .jp, .call, .seImm, .sneImm, .seReg, .sneReg,
   .ldImm, .addImm, .ldReg, .orReg, .andReg, .xorReg, .addReg, .subReg,
   .subnReg, .shr, .shl, .ldI, .jpV0, .rnd, .drw, .skp,
   .sknp, .ldVxDt, .ldDtVx, .ldStVx, .ldVxK, .addI, .ldF, .ldB,
   .ldMemVx, .ldVxMem]

/-- A digit of a word fits a digit of a pattern. -/
def digitFits : Option Nibble → Nibble → Bool
  | none, _ => true
  | some v, d => v == d

/-- The word has the pattern's fixed digits. -/
def Pattern.fits (p : Pattern) (w : Word) : Bool :=
  digitFits p.d3 (fieldMajor w) && digitFits p.d2 (fieldX w) && digitFits p.d1 (fieldY w) && digitFits p.d0 (fieldN w)

/-- R66's mask column: ones where the pattern's digits are fixed. -/
def Pattern.mask (p : Pattern) : Word :=
  let ones (d : Option Nibble) : Nibble := if d.isSome then 0xF else 0
  wordOfNibbles (ones p.d3) (ones p.d2) (ones p.d1) (ones p.d0)

/-- R66's match column: the fixed digits, 0 elsewhere. -/
def Pattern.value (p : Pattern) : Word :=
  wordOfNibbles (p.d3.getD 0) (p.d2.getD 0) (p.d1.getD 0) (p.d0.getD 0)

/-! ### The decoder -/

/-- R64: the instruction a word stands for; `none` for an illegal word, which the step turns into
UnrecognizedOpcode(w) (R67, 60_exceptions.md R161). Total on all 65536 words. -/
def decodeWord (w : Word) : Option Instr :=
  (opcodes.find? fun op => op.pattern.fits w).map (Opcode.build w)

/-- What a byte sequence starts with: an instruction and the bytes after it, an illegal word (by name), or fewer
than the two bytes every instruction has (R60). -/
inductive Decoded where
  | instr (i : Instr) (rest : List Byte)
  | unrecognizedOpcode (w : Word)
  | tooShort
  deriving DecidableEq, Repr

/-- Decoding of bytes as they stand in memory, first byte most significant (R60, 20_memory.md R45). -/
def decodeBytes : List Byte → Decoded
  | first :: second :: rest =>
    match decodeWord (wordOfBytes first second) with
    | some i => .instr i rest
    | none => .unrecognizedOpcode (wordOfBytes first second)
  | _ => .tooShort

/-- The instruction in a word of the opcode table: the word's bytes laid out as in memory and given to
`decodeBytes`. Bit 0 of `w` is the least significant bit of the 16-bit word; bits from `nbits` up are 0. -/
def decodeTableWord (nbits w : Nat) : Option Instr :=
  match decodeBytes (bytesOfWord (BitVec.ofNat 16 (w % 2 ^ nbits))) with
  | .instr i _ => some i
  | .unrecognizedOpcode _ => none
  | .tooShort => none

/-! ### R64's decoding procedure, letter by letter

The machine decodes with the table above. This is the same map written as R64 words it, for the statement that the
two agree. -/

/-- R64, major 8: by w[3:0]. -/
def decodeProcedure8 (w : Word) : Option Instr :=
  match fieldN w with
  | 0x0#4 => some (.ldReg (fieldX w) (fieldY w))
  | 0x1#4 => some (.orReg (fieldX w) (fieldY w))
  | 0x2#4 => some (.andReg (fieldX w) (fieldY w))
  | 0x3#4 => some (.xorReg (fieldX w) (fieldY w))
  | 0x4#4 => some (.addReg (fieldX w) (fieldY w))
  | 0x5#4 => some (.subReg (fieldX w) (fieldY w))
  | 0x6#4 => some (.shr (fieldX w) (fieldY w))
  | 0x7#4 => some (.subnReg (fieldX w) (fieldY w))
  | 0xE#4 => some (.shl (fieldX w) (fieldY w))
  | _ => none

/-- R64, major E: by w[7:0]. -/
def decodeProcedureE (w : Word) : Option Instr :=
  match fieldKk w with
  | 0x9E#8 => some (.skp (fieldX w))
  | 0xA1#8 => some (.sknp (fieldX w))
  | _ => none

/-- R64, major F: by w[7:0]. -/
def decodeProcedureF (w : Word) : Option Instr :=
  match fieldKk w with
  | 0x07#8 => some (.ldVxDt (fieldX w))
  | 0x0A#8 => some (.ldVxK (fieldX w))
  | 0x15#8 => some (.ldDtVx (fieldX w))
  | 0x18#8 => some (.ldStVx (fieldX w))
  | 0x1E#8 => some (.addI (fieldX w))
  | 0x29#8 => some (.ldF (fieldX w))
  | 0x33#8 => some (.ldB (fieldX w))
  | 0x55#8 => some (.ldMemVx (fieldX w))
  | 0x65#8 => some (.ldVxMem (fieldX w))
  | _ => none

/-- R64: the decoding procedure, by major = w[15:12]. -/
def decodeProcedure (w : Word) : Option Instr :=
  match fieldMajor w with
  | 0x0#4 => if w = 0x00E0 then some .cls else if w = 0x00EE then some .ret else none
  | 0x1#4 => some (.jp (fieldNnn w))
  | 0x2#4 => some (.call (fieldNnn w))
  | 0x3#4 => some (.seImm (fieldX w) (fieldKk w))
  | 0x4#4 => some (.sneImm (fieldX w) (fieldKk w))
  | 0x5#4 => if fieldN w = 0 then some (.seReg (fieldX w) (fieldY w)) else none
  | 0x6#4 => some (.ldImm (fieldX w) (fieldKk w))
  | 0x7#4 => some (.addImm (fieldX w) (fieldKk w))
  | 0x8#4 => decodeProcedure8 w
  | 0x9#4 => if fieldN w = 0 then some (.sneReg (fieldX w) (fieldY w)) else none
  | 0xA#4 => some (.ldI (fieldNnn w))
  | 0xB#4 => some (.jpV0 (fieldNnn w))
  | 0xC#4 => some (.rnd (fieldX w) (fieldKk w))
  | 0xD#4 => some (.drw (fieldX w) (fieldY w) (fieldN w))
  | 0xE#4 => decodeProcedureE w
  | _ => decodeProcedureF w

/-! ### The encoder -/

/-- The row of R66 an instruction belongs to. -/
def Instr.opcode : Instr → Opcode
  | .cls => .cls
  | .ret => .ret
  | .jp _ => .jp
  | .call _ => .call
  | .seImm _ _ => .seImm
  | .sneImm _ _ => .sneImm
  | .seReg _ _ => .seReg
  | .sneReg _ _ => .sneReg
  | .ldImm _ _ => .ldImm
  | .addImm _ _ => .addImm
  | .ldReg _ _ => .ldReg
  | .orReg _ _ => .orReg
  | .andReg _ _ => .andReg
  | .xorReg _ _ => .xorReg
  | .addReg _ _ => .addReg
  | .subReg _ _ => .subReg
  | .subnReg _ _ => .subnReg
  | .shr _ _ => .shr
  | .shl _ _ => .shl
  | .ldI _ => .ldI
  | .jpV0 _ => .jpV0
  | .rnd _ _ => .rnd
  | .drw _ _ _ => .drw
  | .skp _ => .skp
  | .sknp _ => .sknp
  | .ldVxDt _ => .ldVxDt
  | .ldDtVx _ => .ldDtVx
  | .ldStVx _ => .ldStVx
  | .ldVxK _ => .ldVxK
  | .addI _ => .addI
  | .ldF _ => .ldF
  | .ldB _ => .ldB
  | .ldMemVx _ => .ldMemVx
  | .ldVxMem _ => .ldVxMem

/-- The second, third and fourth digit of a word as its operands give them, 0 where no operand stands. -/
structure FieldDigits where
  d2 : Nibble
  d1 : Nibble
  d0 : Nibble
  deriving DecidableEq, Repr

/-- The digits of a twelve-bit address. -/
def nnnDigits (nnn : Addr) : FieldDigits := ⟨nnn.extractLsb' 8 4, nnn.extractLsb' 4 4, nnn.extractLsb' 0 4⟩

/-- The operand digits of an instruction, by its format (R61). -/
def Instr.fields : Instr → FieldDigits
  | .cls => ⟨0, 0, 0⟩
  | .ret => ⟨0, 0, 0⟩
  | .jp nnn => nnnDigits nnn
  | .call nnn => nnnDigits nnn
  | .seImm x kk => ⟨x, highNibble kk, lowNibble kk⟩
  | .sneImm x kk => ⟨x, highNibble kk, lowNibble kk⟩
  | .seReg x y => ⟨x, y, 0⟩
  | .sneReg x y => ⟨x, y, 0⟩
  | .ldImm x kk => ⟨x, highNibble kk, lowNibble kk⟩
  | .addImm x kk => ⟨x, highNibble kk, lowNibble kk⟩
  | .ldReg x y => ⟨x, y, 0⟩
  | .orReg x y => ⟨x, y, 0⟩
  | .andReg x y => ⟨x, y, 0⟩
  | .xorReg x y => ⟨x, y, 0⟩
  | .addReg x y => ⟨x, y, 0⟩
  | .subReg x y => ⟨x, y, 0⟩
  | .subnReg x y => ⟨x, y, 0⟩
  | .shr x y => ⟨x, y, 0⟩
  | .shl x y => ⟨x, y, 0⟩
  | .ldI nnn => nnnDigits nnn
  | .jpV0 nnn => nnnDigits nnn
  | .rnd x kk => ⟨x, highNibble kk, lowNibble kk⟩
  | .drw x y n => ⟨x, y, n⟩
  | .skp x => ⟨x, 0, 0⟩
  | .sknp x => ⟨x, 0, 0⟩
  | .ldVxDt x => ⟨x, 0, 0⟩
  | .ldDtVx x => ⟨x, 0, 0⟩
  | .ldStVx x => ⟨x, 0, 0⟩
  | .ldVxK x => ⟨x, 0, 0⟩
  | .addI x => ⟨x, 0, 0⟩
  | .ldF x => ⟨x, 0, 0⟩
  | .ldB x => ⟨x, 0, 0⟩
  | .ldMemVx x => ⟨x, 0, 0⟩
  | .ldVxMem x => ⟨x, 0, 0⟩

/-- The word of an instruction: the pattern's fixed digits, and the operands in the others (R61, R66). -/
def encode (i : Instr) : Word :=
  let p := i.opcode.pattern
  let f := i.fields
  wordOfNibbles (p.d3.getD 0) (p.d2.getD f.d2) (p.d1.getD f.d1) (p.d0.getD f.d0)

/-- The two bytes of an instruction in memory order. -/
def encodeBytes (i : Instr) : List Byte := bytesOfWord (encode i)

end Sys2Proof
end

