-- ==== Sys2Proof/Machine/Operands.lean ====
section
/-! DEFINITION. The operand forms: the fetch, index plus offset, key selection, sprite origin.
40_step_and_control.md R81, 20_memory.md R44 and R56, 44_keypad_timers.md R150, 43_display.md R145. -/

namespace Sys2Proof.Machine

/-- What a fetch gives: the word at pc, or the address of 40_step_and_control.md R81's fault. -/
inductive Fetched where
  | word (w : Word)
  | outOfBounds (a : Word)
  deriving DecidableEq, Repr

/-- The word whose bytes stand at `a` and `a + 1`, big-endian (20_memory.md R45). -/
def wordAt (m : Memory) (a : Nat) : Word := wordOfBytes (Memory.read m a) (Memory.read m (a + 1))

/-- 40_step_and_control.md R81: the fetch. It reports pc if pc > 4095, 4096 if pc = 4095. -/
def fetch (s : State) : Fetched :=
  if s.pc.toNat > 4095 then .outOfBounds s.pc
  else if s.pc.toNat = 4095 then .outOfBounds 4096#16
  else .word (wordAt s.mem s.pc.toNat)

/-- 10_state.md R13, 20_memory.md R56: the base of every data access, I[11:0] as a natural number. -/
def dataBase (s : State) : Nat := (s.index.extractLsb' 0 12).toNat

/-- 42_index_memory.md R136, 60_exceptions.md R162: an instruction that touches the `len` bytes from I[11:0] on.
If they are all inside memory it ends in `done`; if not it raises MemoryOutOfBounds(4096), the lowest invalid
address (20_memory.md R56), and nothing else changes. With `len` = 0 nothing is touched and nothing is checked. -/
def overSpan (len : Nat) (s done : State) : Host.Outcome State Fault Refusal :=
  if dataBase s + len ≤ 4096 then .next done else .next (s.raise .memoryOutOfBounds 4096#16)

/-- 44_keypad_timers.md R150: the latch of the key V[x][3:0]. -/
def keyOf (s : State) (x : Nibble) : Bool := s.key[(lowNibble (s.getV x)).toNat]'(lowNibble (s.getV x)).isLt

/-- 43_display.md R145: the column of the origin, V[x] mod 64. -/
def originColumn (s : State) (x : Nibble) : Nat := (s.getV x).toNat % 64

/-- 43_display.md R145: the row of the origin, V[y] mod 32. -/
def originRow (s : State) (y : Nibble) : Nat := (s.getV y).toNat % 32

end Sys2Proof.Machine
end

