-- ==== Sys2Proof/Machine/Alu.lean ====
section
/-! DEFINITION. Register load, arithmetic, logic, shift and random, 41_alu.md R110 to R123. Results are computed
exactly on natural numbers and reduced modulo 256 at the end (R121); operands are read before anything is written
(R122). None of these instructions can fault. -/

namespace Sys2Proof.Machine

/-- R110, LD Vx,kk. -/
def execLdImm (x : Nibble) (kk : Byte) (s : State) : Host.Outcome State Fault Refusal :=
  .next (s.setV x kk).advance

/-- R111, ADD Vx,kk: modulo 256; VF is not written. -/
def execAddImm (x : Nibble) (kk : Byte) (s : State) : Host.Outcome State Fault Refusal :=
  .next (s.setV x (BitVec.ofNat 8 ((s.getV x).toNat + kk.toNat))).advance

/-- R112, LD Vx,Vy. -/
def execLdReg (x y : Nibble) (s : State) : Host.Outcome State Fault Refusal :=
  .next (s.setV x (s.getV y)).advance

/-- R113, OR Vx,Vy: no flags affected. -/
def execOrReg (x y : Nibble) (s : State) : Host.Outcome State Fault Refusal :=
  .next (s.setV x (s.getV x ||| s.getV y)).advance

/-- R114, AND Vx,Vy: no flags affected. -/
def execAndReg (x y : Nibble) (s : State) : Host.Outcome State Fault Refusal :=
  .next (s.setV x (s.getV x &&& s.getV y)).advance

/-- R115, XOR Vx,Vy: no flags affected. -/
def execXorReg (x y : Nibble) (s : State) : Host.Outcome State Fault Refusal :=
  .next (s.setV x (s.getV x ^^^ s.getV y)).advance

/-- R116, ADD Vx,Vy: VF = carry. -/
def execAddReg (x y : Nibble) (s : State) : Host.Outcome State Fault Refusal :=
  let a := s.getV x
  let b := s.getV y
  .next (s.setResultAndFlag x (BitVec.ofNat 8 (a.toNat + b.toNat)) (carryOut a b)).advance

/-- The difference modulo 256 of 41_alu.md R121: a - b if a ≥ b, a - b + 256 otherwise. -/
def difference (a b : Byte) : Byte := BitVec.ofNat 8 (a.toNat + 256 - b.toNat)

/-- R117, SUB Vx,Vy: Vx - Vy, VF = no borrow. -/
def execSubReg (x y : Nibble) (s : State) : Host.Outcome State Fault Refusal :=
  let a := s.getV x
  let b := s.getV y
  .next (s.setResultAndFlag x (difference a b) (noBorrow a b)).advance

/-- R119, SUBN Vx,Vy: Vy - Vx into Vx, VF = no borrow. -/
def execSubnReg (x y : Nibble) (s : State) : Host.Outcome State Fault Refusal :=
  let a := s.getV x
  let b := s.getV y
  .next (s.setResultAndFlag x (difference b a) (noBorrow b a)).advance

/-- R118, SHR Vx: VF = bit 0 before the shift; the y field is ignored. -/
def execShr (x _y : Nibble) (s : State) : Host.Outcome State Fault Refusal :=
  let a := s.getV x
  .next (s.setResultAndFlag x (BitVec.ofNat 8 (a.toNat / 2)) (lowBit a)).advance

/-- R120, SHL Vx: VF = bit 7 before the shift; the y field is ignored. -/
def execShl (x _y : Nibble) (s : State) : Host.Outcome State Fault Refusal :=
  let a := s.getV x
  .next (s.setResultAndFlag x (BitVec.ofNat 8 (a.toNat * 2)) (highBit a)).advance

/-- R123, RND Vx,kk: a fresh byte under the mask kk. The byte is a free value, picked by the count of draws
(log entry 1). -/
def execRnd (x : Nibble) (kk : Byte) (s : State) : Host.Outcome State Fault Refusal :=
  .next (s.countDraw.setV x (Config.rndByte s.draws &&& kk)).advance

end Sys2Proof.Machine
end

