-- ==== Sys2Proof/Machine/Control.lean ====
section
/-! DEFINITION. The control-transfer instructions, 40_step_and_control.md R86 to R93. Targets need no alignment and
are not checked: an invalid one faults at the next fetch (R95). -/

namespace Sys2Proof.Machine

/-- R86, JP nnn: pc <- nnn. -/
def execJp (nnn : Addr) (s : State) : Host.Outcome State Fault Refusal :=
  .next (s.setPc (nnn.zeroExtend 16))

/-- R87, CALL nnn: pushes pc + 2, the address of the next instruction (90_conflicts.md C2); StackOverflow if
SP = 16. -/
def execCall (nnn : Addr) (s : State) : Host.Outcome State Fault Refusal :=
  if h : s.sp.val < 16 then .next ((s.push (s.pc + 2#16) h).setPc (nnn.zeroExtend 16))
  else .next (s.raise .stackOverflow 0#16)

/-- R88, RET: pc <- the popped entry, as it is; StackUnderflow if SP = 0. -/
def execRet (s : State) : Host.Outcome State Fault Refusal :=
  if h : 0 < s.sp.val then .next (s.pop.setPc (s.top h))
  else .next (s.raise .stackUnderflow 0#16)

/-- R89, JP V0,nnn: pc <- nnn + V0, not reduced modulo 4096. -/
def execJpV0 (nnn : Addr) (s : State) : Host.Outcome State Fault Refusal :=
  .next (s.setPc (nnn.zeroExtend 16 + (s.getV 0#4).zeroExtend 16))

/-- R90, SE Vx,kk. -/
def execSeImm (x : Nibble) (kk : Byte) (s : State) : Host.Outcome State Fault Refusal :=
  .next (s.skipIf (s.getV x == kk))

/-- R91, SNE Vx,kk. -/
def execSneImm (x : Nibble) (kk : Byte) (s : State) : Host.Outcome State Fault Refusal :=
  .next (s.skipIf (s.getV x != kk))

/-- R92, SE Vx,Vy. -/
def execSeReg (x y : Nibble) (s : State) : Host.Outcome State Fault Refusal :=
  .next (s.skipIf (s.getV x == s.getV y))

/-- R93, SNE Vx,Vy. -/
def execSneReg (x y : Nibble) (s : State) : Host.Outcome State Fault Refusal :=
  .next (s.skipIf (s.getV x != s.getV y))

end Sys2Proof.Machine
end

