-- ==== Sys2Proof/Machine/Display.lean ====
section
/-! DEFINITION. The framebuffer, the blit and the display instructions, 43_display.md R140 to R146. -/

namespace Sys2Proof.Machine

/-- R17, R140: FB[cy][cx]. -/
def Grid.cell (g : Grid) (cy : Fin 32) (cx : Fin 64) : Bool := (g[cy])[cx]

/-- R141: FB[cy][cx] <- FB[cy][cx] xor 1. -/
def Grid.toggle (g : Grid) (cy : Fin 32) (cx : Fin 64) : Grid :=
  g.set cy ((g[cy]).set cx (!g.cell cy cx))

/-- R144: all 2048 cells 0. -/
def Grid.clear : Grid := Vector.replicate 32 (Vector.replicate 64 false)

/-- R141: the target cells (cy, cx) of one sprite row, bit 7 of the byte being column 0 of the sprite; each column
wraps modulo 64. -/
def rowTargets (ox : Nat) (cy : Fin 32) (b : Byte) : List (Fin 32 × Fin 64) :=
  ((List.range 8).filter fun c => b.getLsbD (7 - c)).map fun c => (cy, Fin.ofNat 64 (ox + c))

/-- R141: the target cells of a sprite's 1 bits, row by row; each row wraps modulo 32. -/
def spriteTargets (ox : Nat) : Nat → List Byte → List (Fin 32 × Fin 64)
  | _, [] => []
  | oy, b :: rows => rowTargets ox (Fin.ofNat 32 oy) b ++ spriteTargets ox (oy + 1) rows

/-- R141: one 1 bit of the sprite: `hit` if its cell is set, and the cell toggled. -/
def togglePixel (acc : Grid × Bool) (p : Fin 32 × Fin 64) : Grid × Bool :=
  (acc.1.toggle p.1 p.2, acc.2 || acc.1.cell p.1 p.2)

/-- R141, R142: the blit, giving the new framebuffer and the collision bit. -/
def blit (g : Grid) (ox oy : Nat) (rows : List Byte) : Grid × Bool :=
  (spriteTargets ox oy rows).foldl togglePixel (g, false)

/-- R146: some sprite byte is nonzero, so that the blit toggles at least one cell. -/
def anyPixel (rows : List Byte) : Bool := rows.any fun b => b != 0#8

/-- R144, CLS: all cells 0, dirty set always (R146). -/
def execCls (s : State) : Host.Outcome State Fault Refusal :=
  .next ((s.setFb Grid.clear).setDirty true).advance

/-- R145: the n bytes of the sprite. -/
def spriteRows (n : Nibble) (s : State) : List Byte := Memory.readBytes s.mem (dataBase s) n.toNat

/-- R145, DRW Vx,Vy,n: VF = collision, dirty set iff a cell was toggled (R146). Vx and Vy are read before VF is
written. With n = 0 nothing is read or drawn and VF = 0. -/
def execDrw (x y n : Nibble) (s : State) : Host.Outcome State Fault Refusal :=
  let rows := spriteRows n s
  let out := blit s.fb (originColumn s x) (originRow s y) rows
  overSpan n.toNat s (((s.setFb out.1).setV 0xF#4 (flagByte out.2)).setDirty (s.dirty || anyPixel rows)).advance

end Sys2Proof.Machine
end

