-- ==== Sys2Proof/Machine/Index.lean ====
section
/-! DEFINITION. Index register and memory, 42_index_memory.md R130 to R136. Accesses never change I; bounds are
checked for the whole instruction before any byte moves (R136). -/

namespace Sys2Proof.Machine

/-- R130, LD I,nnn. -/
def execLdI (nnn : Addr) (s : State) : Host.Outcome State Fault Refusal :=
  .next (s.setIndex (nnn.zeroExtend 16)).advance

/-- R131, ADD I,Vx: (I[11:0] + Vx) mod 4096; VF is not written. -/
def execAddI (x : Nibble) (s : State) : Host.Outcome State Fault Refusal :=
  .next (s.setIndex (BitVec.ofNat 16 ((dataBase s + (s.getV x).toNat) % 4096))).advance

/-- R132, LD F,Vx: I <- Vx × 5, all 8 bits of Vx. -/
def execLdF (x : Nibble) (s : State) : Host.Outcome State Fault Refusal :=
  .next (s.setIndex (BitVec.ofNat 16 ((s.getV x).toNat * 5))).advance

/-- R133: the three decimal digits of a byte, hundreds, tens, ones. -/
def decimalDigits (b : Byte) : List Byte :=
  [BitVec.ofNat 8 (b.toNat / 100), BitVec.ofNat 8 (b.toNat / 10 % 10), BitVec.ofNat 8 (b.toNat % 10)]

/-- R133, LD B,Vx: the digits at I[11:0], + 1, + 2. -/
def execLdB (x : Nibble) (s : State) : Host.Outcome State Fault Refusal :=
  overSpan 3 s (s.setMem (Memory.writeBytes s.mem (dataBase s) (decimalDigits (s.getV x)))).advance

/-- R134: the registers V0 to Vx, in order. -/
def registersUpTo (x : Nibble) (s : State) : List Byte := s.v.toList.take (x.toNat + 1)

/-- R134, LD [I],Vx: V0 to Vx at I[11:0] onward. -/
def execLdMemVx (x : Nibble) (s : State) : Host.Outcome State Fault Refusal :=
  overSpan (x.toNat + 1) s (s.setMem (Memory.writeBytes s.mem (dataBase s) (registersUpTo x s))).advance

/-- R135: V[j] <- M[I[11:0] + j] for j = 0 to x, the registers above Vx unchanged. -/
def State.loadRegisters (x : Nibble) (s : State) : State :=
  { s with v := Vector.ofFn fun j => if j.val ≤ x.toNat then Memory.read s.mem (dataBase s + j.val) else s.v[j] }

/-- R135, LD Vx,[I]: V0 to Vx from I[11:0] onward. -/
def execLdVxMem (x : Nibble) (s : State) : Host.Outcome State Fault Refusal :=
  overSpan (x.toNat + 1) s (s.loadRegisters x).advance

end Sys2Proof.Machine
end

