-- ==== Sys2Proof/Machine/Keypad.lean ====
section
/-! DEFINITION. Keypad and timer instructions, 44_keypad_timers.md R150 to R156, the resuming step R153 among
them. None can fault and none accesses memory. -/

namespace Sys2Proof.Machine

/-- R150, SKP Vx: the level of the latch, not an edge. -/
def execSkp (x : Nibble) (s : State) : Host.Outcome State Fault Refusal :=
  .next (s.skipIf (keyOf s x))

/-- R151, SKNP Vx. -/
def execSknp (x : Nibble) (s : State) : Host.Outcome State Fault Refusal :=
  .next (s.skipIf (!keyOf s x))

/-- R152, LD Vx,K: enters the wait and drops a press recorded before; pc stays. -/
def execLdVxK (x : Nibble) (s : State) : Host.Outcome State Fault Refusal :=
  .next ((s.setMode (.waitingForKey x)).setLkv false)

/-- R153: a step in mode WaitingForKey(t): with a press recorded it takes the key's number into V[t] and goes on;
without one nothing changes. It does not fetch. -/
def State.stepWaiting (t : Nibble) (s : State) : State :=
  if s.lkv then (((s.setV t (s.lk.zeroExtend 8)).setLkv false).setMode .running).advance else s

/-- R154, LD Vx,DT. -/
def execLdVxDt (x : Nibble) (s : State) : Host.Outcome State Fault Refusal :=
  .next (s.setV x s.dt).advance

/-- R155, LD DT,Vx. -/
def execLdDtVx (x : Nibble) (s : State) : Host.Outcome State Fault Refusal :=
  .next (s.setDt (s.getV x)).advance

/-- R156, LD ST,Vx. -/
def execLdStVx (x : Nibble) (s : State) : Host.Outcome State Fault Refusal :=
  .next (s.setSt (s.getV x)).advance

end Sys2Proof.Machine
end

