-- ==== Sys2Proof/Machine/Step.lean ====
section
/-! DEFINITION. The step, 40_step_and_control.md R80 to R82, and placing an instruction where it fetches. -/

namespace Sys2Proof.Machine

/-- R80: by mode. In mode Running: fetch (R81), decode (30_encoding.md R64), execute (R82); a fetch outside memory
raises MemoryOutOfBounds and an illegal word UnrecognizedOpcode, before anything else (60_exceptions.md R167). -/
def step (s : State) : Host.Outcome State Fault Refusal :=
  match s.mode with
  | .halted _ _ => .next s.stepHalted
  | .waitingForKey t => .next (s.stepWaiting t)
  | .running =>
    match fetch s with
    | .outOfBounds a => .next (s.raise .memoryOutOfBounds a)
    | .word w =>
      match decodeWord w with
      | some i => exec i s
      | none => .next (s.raise .unrecognizedOpcode w)

/-- The state with the table word `w` (bits from `nbits` up 0) in the two bytes at pc, first byte most significant,
and the mode Running, in which a step fetches. Where pc or pc + 1 is no address nothing is stored. It stands for the
host's load (70_reset_and_hazards.md R193; log entry 2). -/
def State.withFetchWord (s : State) (nbits w : Nat) : State :=
  let bytes := bytesOfWord (BitVec.ofNat 16 (w % 2 ^ nbits))
  let mem := if s.pc.toNat < 4095 then Memory.writeBytes s.mem s.pc.toNat bytes else s.mem
  (s.setMem mem).setMode .running

end Sys2Proof.Machine
end

