-- ==== Sys2Proof/Machine/HostOps.lean ====
section
/-! DEFINITION. The host's operations on the machine, 60_exceptions.md R170 to R181, each one atomic change of
state, and the results they report; and the end of a run (40_step_and_control.md R97). Any list of `HostOp` is an
order the host may choose (R170). -/

namespace Sys2Proof.Machine

/-- 60_exceptions.md R160: the fault's code. -/
def Fault.code : Fault → Nat
  | .unrecognizedOpcode => 1
  | .memoryOutOfBounds => 2
  | .stackOverflow => 3
  | .stackUnderflow => 4
  | .romTooLarge => 5

/-- 40_step_and_control.md R85: what a step reports to the host. -/
inductive StepResult where
  | done
  | waiting
  | fault (f : Fault) (a : Word)
  deriving DecidableEq, Repr

/-- 40_step_and_control.md R85: the result, told by the mode after the step. -/
def State.stepResult (after : State) : StepResult :=
  match after.mode with
  | .running => .done
  | .waitingForKey _ => .waiting
  | .halted f a => .fault f a

/-- 40_step_and_control.md R97: the instruction is a jump to its own address: JP nnn with nnn = pc, or JP V0,nnn with
nnn + V0 = pc. -/
def isOwnJump (i : Instr) (s : State) : Bool :=
  match i with
  | .jp nnn => nnn.zeroExtend 16 == s.pc
  | .jpV0 nnn => nnn.zeroExtend 16 + (s.getV 0#4).zeroExtend 16 == s.pc
  | _ => false

/-- How a run ends. -/
inductive RunEnd where
  /-- The program stays in a jump to its own address. -/
  | finished
  /-- A fault has halted the machine. -/
  | fault (f : Fault) (a : Word)
  deriving DecidableEq, Repr

/-- 40_step_and_control.md R97: the end of a run, which the spec leaves to a model to define. DESIGN CHOICE, log entry
8: R97's own instance, pc at a jump to that same address, and a fault. The hardware does not notice the first: a step
there answers a next state like any other. A wait for a key is no end (93_implementation_defined.md U21). -/
def State.runEnd (s : State) : Option RunEnd :=
  match s.mode with
  | .halted f a => some (.fault f a)
  | .waitingForKey _ => none
  | .running =>
    match fetch s with
    | .outOfBounds _ => none
    | .word w => (decodeWord w).bind fun i => if isOwnJump i s then some .finished else none

/-- R174: one down, never below 0. -/
def countDown (b : Byte) : Byte := if b = 0#8 then 0#8 else b - 1#8

/-- R174: tick, in every mode. -/
def State.tick (s : State) : State := { s with dt := countDown s.dt, st := countDown s.st }

/-- R175: set_pressed(k): a latch going from 0 to 1 records the edge, a key already down records nothing. -/
def State.setPressed (k : Nibble) (s : State) : State :=
  if s.key[k.toNat]'k.isLt then s
  else { s with key := s.key.set k.toNat true k.isLt, lk := k, lkv := true }

/-- R176: set_released(k): the latch only; a recorded press stays recorded. -/
def State.setReleased (k : Nibble) (s : State) : State := { s with key := s.key.set k.toNat false k.isLt }

/-- R177: clear_dirty. -/
def State.clearDirty (s : State) : State := s.setDirty false

/-- R190: reset, from any state: every piece of the hardware's state takes its reset value. The count of draws is
no state of the hardware and goes on, so that bytes drawn later are fresh (log entry 1). -/
def State.hostReset (s : State) : State := { State.reset with draws := s.draws }

/-- R172: the bytes of a ROM copied to 0x200 onward. -/
def State.placeRom (bytes : List Byte) (s : State) : State := s.setMem (Memory.writeBytes s.mem 0x200 bytes)

/-- R172, R166: what load reports. -/
inductive LoadResult where
  | ok
  | romTooLarge (size : Nat)
  deriving DecidableEq, Repr

/-- R172: load, the state after it and its result; RomTooLarge(L) with no state change for L > 3584 (R166). -/
def State.load (bytes : List Byte) (s : State) : State × LoadResult :=
  if bytes.length > 3584 then (s, .romTooLarge bytes.length) else (s.placeRom bytes, .ok)

/-- R178: what the source's read accessors show the host. -/
structure Observation where
  grid : Grid
  dirty : Bool
  dt : Byte
  st : Byte
  mode : Mode
  deriving DecidableEq, Repr

/-- R178: the read accessors. -/
def State.observe (s : State) : Observation := ⟨s.fb, s.dirty, s.dt, s.st, s.mode⟩

/-- R178, 43_display.md R140: the cell with flat index cy × 64 + cx. -/
def State.flatCell (s : State) (k : Fin 2048) : Bool :=
  (s.fb[k.val / 64]'(by have := k.isLt; omega))[k.val % 64]'(Nat.mod_lt _ (by decide))

/-- R170: the host's operations. -/
inductive HostOp where
  | reset
  | load (bytes : List Byte)
  | step
  | tick
  | setPressed (k : Nibble)
  | setReleased (k : Nibble)
  | clearDirty
  | read
  deriving DecidableEq, Repr

/-- What an operation reports. -/
inductive OpResult where
  | none
  | load (r : LoadResult)
  | step (r : StepResult)
  | read (o : Observation)
  deriving DecidableEq, Repr

/-- The machine and whether a step has been made since its reset: load is defined only before (R172; log entry 3).
Not state of the hardware (10_state.md R23). -/
structure Session where
  state : State
  stepped : Bool
  deriving DecidableEq, Repr

/-- The machine after its construction. -/
def Session.start : Session := ⟨State.reset, false⟩

/-- R170, R181: one operation: the session after it and what it reports. Refused: load after a step, which the spec
gives no move (93_implementation_defined.md U7). -/
def HostOp.apply (op : HostOp) (m : Session) : Host.Outcome (Session × OpResult) Fault Refusal :=
  match op with
  | .reset => .next (⟨m.state.hostReset, false⟩, .none)
  | .load bytes =>
    if m.stepped then .refused .loadNotDefined
    else .next (⟨(m.state.load bytes).1, m.stepped⟩, .load (m.state.load bytes).2)
  | .step =>
    match Sys2Proof.Machine.step m.state with
    | .next s => .next (⟨s, true⟩, .step s.stepResult)
    | .fault f => .fault f
    | .refused r => .refused r
  | .tick => .next ({ m with state := m.state.tick }, .none)
  | .setPressed k => .next ({ m with state := m.state.setPressed k }, .none)
  | .setReleased k => .next ({ m with state := m.state.setReleased k }, .none)
  | .clearDirty => .next ({ m with state := m.state.clearDirty }, .none)
  | .read => .next (m, .read m.state.observe)

end Sys2Proof.Machine
end

