-- ==== Sys2Proof/Safety.lean ====
section
/-! DEFINITION. The terms claims about the machine are stated in: the parts of the state and what a change leaves
alone, the bytes and cells an instruction touches, why a machine halted, and the invariants of 10_state.md R25. -/

namespace Sys2Proof.Machine

/-! ### Parts of the state and frames -/

/-- One part of the state of 10_state.md R10, down to a register, a stack entry, a cell, a latch, a byte. -/
inductive Part where
  | reg (r : Nibble)
  | index
  | pc
  | sp
  | stk (j : Fin 16)
  | dt
  | st
  | cell (cy : Fin 32) (cx : Fin 64)
  | dirty
  | key (k : Nibble)
  | lkv
  | lk
  | mode
  | byte (a : Nat)
  | draws
  deriving DecidableEq, Repr

/-- The part holds in `t` what it held in `s`. A byte of memory is compared as it reads. -/
def Part.same (s t : State) : Part → Prop
  | .reg r => t.getV r = s.getV r
  | .index => t.index = s.index
  | .pc => t.pc = s.pc
  | .sp => t.sp = s.sp
  | .stk j => t.stk[j] = s.stk[j]
  | .dt => t.dt = s.dt
  | .st => t.st = s.st
  | .cell cy cx => t.fb.cell cy cx = s.fb.cell cy cx
  | .dirty => t.dirty = s.dirty
  | .key k => t.key[k.toNat]'k.isLt = s.key[k.toNat]'k.isLt
  | .lkv => t.lkv = s.lkv
  | .lk => t.lk = s.lk
  | .mode => t.mode = s.mode
  | .byte a => Memory.read t.mem a = Memory.read s.mem a
  | .draws => t.draws = s.draws

/-- The frame: every part of the state but those of `changed` is in `t` as it was in `s`. -/
def unchangedBut (changed : Part → Prop) (s t : State) : Prop := ∀ p : Part, ¬ changed p → Part.same s t p

/-- 60_exceptions.md R164: `t` is `s` after fault `f` with value `a`: mode Halted(f, a), every other part of the
state as it was. -/
def haltedFrom (f : Fault) (a : Word) (s t : State) : Prop :=
  t.mode = .halted f a ∧ unchangedBut (fun p => p = .mode) s t

/-! ### What an instruction touches -/

/-- 20_memory.md R48, R55: how many bytes from I[11:0] on an instruction reads or writes. -/
def dataLength : Instr → Nat
  | .drw _ _ n => n.toNat
  | .ldB _ => 3
  | .ldMemVx x => x.toNat + 1
  | .ldVxMem x => x.toNat + 1
  | _ => 0

/-- 43_display.md R141: the cell (cy, cx) is the target of a 1 bit of the sprite: row r, column c of the sprite,
bit 7 - c of its byte, each axis wrapped. -/
def spriteTarget (ox oy : Nat) (rows : List Byte) (cy : Fin 32) (cx : Fin 64) : Prop :=
  ∃ r c : Nat, ∃ h : r < rows.length, c < 8 ∧ (rows[r]'h).getLsbD (7 - c) = true ∧
    cy.val = (oy + r) % 32 ∧ cx.val = (ox + c) % 64

/-- 10_state.md R12: the general registers an instruction may write: its destination, VF for the six that put a flag
there, V0 to Vx for LD Vx,[I]. -/
def writesRegister (i : Instr) (r : Nibble) : Prop :=
  match i with
  | .ldImm x _ | .addImm x _ | .ldReg x _ | .orReg x _ | .andReg x _ | .xorReg x _ | .rnd x _ | .ldVxDt x => r = x
  | .addReg x _ | .subReg x _ | .subnReg x _ | .shr x _ | .shl x _ => r = x ∨ r = 0xF#4
  | .drw _ _ _ => r = 0xF#4
  | .ldVxMem x => r.toNat ≤ x.toNat
  | _ => False

/-- 60_exceptions.md R160, R167: the instructions that have a fault of their own. -/
def mayFault (i : Instr) : Prop :=
  match i with
  | .call _ | .ret | .drw _ _ _ | .ldB _ | .ldMemVx _ | .ldVxMem _ => True
  | _ => False

/-- 10_state.md R24's column "written by", R12, R15, R17, R19, 20_memory.md R55: the parts of the state an
instruction executed in `s` may write: of the stack the entry STK[SP] (R87), of the framebuffer the target cells of
the sprite (R141), of memory the bytes of R55's table, from I[11:0] on. -/
def mayWrite (i : Instr) (s : State) (p : Part) : Prop :=
  match p with
  | .reg r => writesRegister i r
  | .index => (∃ nnn, i = .ldI nnn) ∨ (∃ x, i = .addI x) ∨ ∃ x, i = .ldF x
  | .pc => ∀ x, i ≠ .ldVxK x
  | .sp => (∃ nnn, i = .call nnn) ∨ i = .ret
  | .stk j => j.val = s.sp.val ∧ ∃ nnn, i = .call nnn
  | .dt => ∃ x, i = .ldDtVx x
  | .st => ∃ x, i = .ldStVx x
  | .cell cy cx => i = .cls ∨ ∃ x y n, i = .drw x y n ∧
      spriteTarget (originColumn s x) (originRow s y) (spriteRows n s) cy cx
  | .dirty => i = .cls ∨ ∃ x y n, i = .drw x y n
  | .key _ => False
  | .lkv => ∃ x, i = .ldVxK x
  | .lk => False
  | .mode => mayFault i ∨ ∃ x, i = .ldVxK x
  | .byte a => dataBase s ≤ a ∧ a < dataBase s + dataLength i ∧ ((∃ x, i = .ldB x) ∨ ∃ x, i = .ldMemVx x)
  | .draws => ∃ x kk, i = .rnd x kk

/-- 40_step_and_control.md R83, R90 to R93: the end of a skip instruction with condition `c`: `skip` where it holds,
`next` where it does not. -/
def skipLaw (c : Prop) [Decidable c] (s t : State) : Prop := t.pc = if c then s.pc + 4#16 else s.pc + 2#16

/-- 40_step_and_control.md R83: where pc goes when an instruction completes: a jump, call or return target, 4 on for
a skip whose condition holds, no advance on entering the key wait, and 2 on for all others, an unsatisfied skip among
them. -/
def pcLaw (i : Instr) (s t : State) : Prop :=
  match i with
  | .jp nnn => t.pc.toNat = nnn.toNat
  | .call nnn => t.pc.toNat = nnn.toNat
  | .ret => ∃ h : 0 < s.sp.val, t.pc = s.stk[s.sp.val - 1]'(by omega)
  | .jpV0 nnn => t.pc.toNat = nnn.toNat + (s.getV 0#4).toNat
  | .seImm x kk => skipLaw (s.getV x = kk) s t
  | .sneImm x kk => skipLaw (s.getV x ≠ kk) s t
  | .seReg x y => skipLaw (s.getV x = s.getV y) s t
  | .sneReg x y => skipLaw (s.getV x ≠ s.getV y) s t
  | .skp x => skipLaw (keyOf s x = true) s t
  | .sknp x => skipLaw (keyOf s x = false) s t
  | .ldVxK _ => t.pc = s.pc
  | _ => t.pc = s.pc + 2#16

/-- The step of `s` executes `i`: the machine is Running and the word it fetches decodes to `i`
(40_step_and_control.md R80 to R82). -/
def executes (s : State) (i : Instr) : Prop := s.mode = .running ∧ ∃ w, fetch s = .word w ∧ decodeWord w = some i

/-! ### Why a machine halted -/

/-- 60_exceptions.md R160 to R167: the state shows the cause of its fault: what R164 leaves as it was still
contains the word, address or stack pointer that raised it. RomTooLarge halts nothing (R166). -/
def faultStands (s : State) (f : Fault) (a : Word) : Prop :=
  match f with
  | .unrecognizedOpcode => fetch s = .word a ∧ illegalWord a = true
  | .memoryOutOfBounds => fetch s = .outOfBounds a ∨
      a = 4096#16 ∧ ∃ w i, fetch s = .word w ∧ decodeWord w = some i ∧ 4096 < dataBase s + dataLength i
  | .stackOverflow => a = 0#16 ∧ s.sp.val = 16 ∧ ∃ w nnn, fetch s = .word w ∧ decodeWord w = some (.call nnn)
  | .stackUnderflow => a = 0#16 ∧ s.sp.val = 0 ∧ ∃ w, fetch s = .word w ∧ decodeWord w = some .ret
  | .romTooLarge => False

/-! ### Invariants (10_state.md R25) -/

/-- 10_state.md R25, in every state reachable from reset. SP at most 16, R25 (b), is in the type of `sp`; R25 (f) is
about what may change in mode Halted and is a statement of its own. -/
structure State.Inv (s : State) : Prop where
  /-- The memory is in canonical form. -/
  memory : Memory.wf s.mem
  /-- R25 (a). -/
  index : s.index.toNat < 4096
  /-- R25 (c), 40_step_and_control.md R96. -/
  pc : s.pc.toNat ≤ 0x10FE
  /-- R25 (d). -/
  stack : ∀ j : Fin 16, s.stk[j].toNat ≤ 4096
  /-- R25 (e): the word waiting to complete is LD Vt,K. -/
  waiting : ∀ t, s.mode = .waitingForKey t →
    ∃ w, fetch s = .word w ∧ decodeWord w = some (.ldVxK t)
  /-- A halted machine shows why. -/
  halted : ∀ f a, s.mode = .halted f a → faultStands s f a

/-- The invariants with the load window: before the first step the machine is Running, so a load meets no waiting
and no halted machine (60_exceptions.md R181). -/
structure Session.Inv (m : Session) : Prop where
  state : m.state.Inv
  window : m.stepped = false → m.state.mode = .running

/-- A session the host can reach by some order of operations (60_exceptions.md R170). -/
inductive Reachable : Session → Prop where
  | start : Reachable Session.start
  | op (o : HostOp) (m m' : Session) (r : OpResult) :
      Reachable m → o.apply m = .next (m', r) → Reachable m'

end Sys2Proof.Machine
end

