-- ==== Sys2Proof/Certificates/Slice0/Obligations.lean ====
section
/-! DEFINITION. The statements for the provers. Each docstring names the rule of spec/ the statement formalises.
Result statements say that `exec` ANSWERS a next state, with no hypothesis but what their rule states, what that
state holds, and, through `unchangedBut`, that nothing else changed. The words in them are the patterns of
30_encoding.md R66. -/

open Sys2Proof Sys2Proof.Machine

/-! ### Encoding -/

/-- 95_test_vectors.md section 2.1 and 30_encoding.md R65: words of every family decode to the instructions they
stand for. -/
def Obligations.WordsOfEveryFamilyDecode : Prop :=
  decodeWord 0x6005 = some (.ldImm 0 5) ∧ decodeWord 0x6103 = some (.ldImm 1 3) ∧
  decodeWord 0x8014 = some (.addReg 0 1) ∧ decodeWord 0x1ABC = some (.jp 0xABC) ∧
  decodeWord 0x3A7F = some (.seImm 0xA 0x7F) ∧ decodeWord 0x5AB0 = some (.seReg 0xA 0xB) ∧
  decodeWord 0x8AF6 = some (.shr 0xA 0xF) ∧ decodeWord 0xDAB5 = some (.drw 0xA 0xB 5) ∧
  decodeWord 0xEA9E = some (.skp 0xA) ∧ decodeWord 0xFA65 = some (.ldVxMem 0xA) ∧
  decodeWord 0x0123 = none ∧ decodeWord 0x5AB1 = none ∧ decodeWord 0xFAFF = none

/-- 30_encoding.md R60 to R66: decoding the word of an instruction gives the instruction back, every operand at
every value. -/
def Obligations.DecodeOfEncodeIsTheInstruction : Prop :=
  ∀ i : Instr, decodeWord (encode i) = some i ∧ ∀ rest, decodeBytes (encodeBytes i ++ rest) = .instr i rest

/-- 30_encoding.md R66, R69: a legal word is the encoding of what it decodes to: no two words are one instruction and
no bit of a word is dropped. -/
def Obligations.EncodeOfDecodeIsTheWord : Prop :=
  ∀ w i, decodeWord w = some i → encode i = w

/-- 30_encoding.md R64: the table-driven decoder is R64's procedure, on all 65536 words. -/
def Obligations.DecoderFollowsTheProcedure : Prop :=
  ∀ w, decodeWord w = decodeProcedure w

/-- 30_encoding.md R67: the words the decoder rejects are exactly those of R67's table. -/
def Obligations.IllegalWordsAreExactlyThoseListed : Prop :=
  ∀ w, decodeWord w = none ↔ illegalWord w = true

/-- 30_encoding.md R66: a word is the instruction of a row iff (word and mask) = match, so it is that of one row at
most (R64: decoding selects exactly one handler). -/
def Obligations.MaskAndMatchSelectOneRow : Prop :=
  ∀ (w : Word) (op : Opcode),
    w &&& op.pattern.mask = op.pattern.value ↔ ∃ i, decodeWord w = some i ∧ i.opcode = op

/-! ### The step -/

/-- 40_step_and_control.md R80 to R82: a Running machine whose two bytes at pc are a legal word runs its instruction,
and adds nothing around it. -/
def Obligations.StepRunsTheDecodedInstruction : Prop :=
  ∀ (s : State) (i : Instr), s.mode = .running → s.pc.toNat ≤ 4094 →
    decodeWord (wordOfBytes (Memory.read s.mem s.pc.toNat) (Memory.read s.mem (s.pc.toNat + 1))) = some i →
    step s = exec i s

/-- 40_step_and_control.md R81: the fetch: past the end of memory MemoryOutOfBounds(pc), at 4095
MemoryOutOfBounds(4096), whatever memory holds; else the two bytes, the first in bits 15 to 8. -/
def Obligations.FetchReadsTwoBytesOrHalts : Prop :=
  (∀ s : State, s.mode = .running → 4095 < s.pc.toNat →
    ∃ t, step s = .next t ∧ haltedFrom .memoryOutOfBounds s.pc s t) ∧
  (∀ s : State, s.mode = .running → s.pc.toNat = 4095 →
    ∃ t, step s = .next t ∧ haltedFrom .memoryOutOfBounds 4096#16 s t) ∧
  (∀ s : State, s.pc.toNat < 4095 → ∃ w, fetch s = .word w ∧
    w.extractLsb' 8 8 = Memory.read s.mem s.pc.toNat ∧ w.extractLsb' 0 8 = Memory.read s.mem (s.pc.toNat + 1))

/-- 60_exceptions.md R161, R162, R163, R165, R167: a step of a Running machine halts with a fault exactly when the
state before it shows that fault's cause, and with that one only; nothing but the mode changes then. -/
def Obligations.StepFaultsExactlyWhenTheCauseStands : Prop :=
  ∀ s : State, s.mode = .running → ∃ t, step s = .next t ∧
    ∀ f a, (t.mode = .halted f a ↔ faultStands s f a) ∧ (faultStands s f a → haltedFrom f a s t)

/-- 60_exceptions.md R164: faults are precise: mode becomes Halted(f, a), every other piece of state keeps its value,
and the result is Fault(f, a). -/
def Obligations.FaultsArePrecise : Prop :=
  ∀ (s t : State) (f : Fault) (a : Word), s.mode = .running → step s = .next t → t.mode = .halted f a →
    haltedFrom f a s t ∧ t.stepResult = .fault f a

/-- 40_step_and_control.md R80, R82: every step of every state answers a next state: no step ends in a stop of the
model. -/
def Obligations.EveryStepAnswersANextState : Prop :=
  (∀ s : State, ∃ t, step s = .next t) ∧ ∀ (i : Instr) (s : State), ∃ t, exec i s = .next t

/-- 40_step_and_control.md R84: the mode transitions of a step, and that tick, set_pressed, set_released and
clear_dirty make none. -/
def Obligations.ModeTransitionsAreThoseListed : Prop :=
  (∀ s t : State, step s = .next t → t.mode = s.mode ∨
    (s.mode = .running ∧ ∃ w x, fetch s = .word w ∧ decodeWord w = some (.ldVxK x) ∧ t.mode = .waitingForKey x) ∨
    ((∃ x, s.mode = .waitingForKey x) ∧ s.lkv = true ∧ t.mode = .running) ∨
    (s.mode = .running ∧ ∃ f a, faultStands s f a ∧ t.mode = .halted f a)) ∧
  ∀ (s : State) (k : Nibble), s.tick.mode = s.mode ∧ (s.setPressed k).mode = s.mode ∧
    (s.setReleased k).mode = s.mode ∧ s.clearDirty.mode = s.mode

/-- 40_step_and_control.md R85: what a step reports: Waiting or Fault(f, a) by the mode after it, else Done; the step
that executes LD Vx,K reports Waiting. -/
def Obligations.StepReportsDoneWaitingOrFault : Prop :=
  (∀ m : Session, ∃ t r, HostOp.step.apply m = .next (⟨t, true⟩, .step r) ∧ step m.state = .next t ∧
    (r = .done ↔ t.mode = .running) ∧ (r = .waiting ↔ ∃ x, t.mode = .waitingForKey x) ∧
    ∀ f a, r = .fault f a ↔ t.mode = .halted f a) ∧
  ∀ (x : Nibble) (s : State), ∃ t, exec (.ldVxK x) s = .next t ∧ t.stepResult = .waiting

/-- 44_keypad_timers.md R153: a step in mode WaitingForKey(t), with and without a recorded press; a press of a key
that is up ends the wait with that key's number, even if it is released again before the step. -/
def Obligations.WaitingStepResumesOnAPress : Prop :=
  ∀ (s : State) (t : Nibble), s.mode = .waitingForKey t →
    (s.lkv = false → step s = .next s ∧ s.stepResult = .waiting) ∧
    (s.lkv = true → ∃ u, step s = .next u ∧ u.getV t = s.lk.zeroExtend 8 ∧ u.lkv = false ∧ u.pc = s.pc + 2#16 ∧
      u.mode = .running ∧ u.stepResult = .done ∧
      unchangedBut (fun p => p = .reg t ∨ p = .lkv ∨ p = .pc ∨ p = .mode) s u) ∧
    (∀ k : Nibble, s.key[k.toNat]'k.isLt = false → ∃ u v, step (s.setPressed k) = .next u ∧
      step ((s.setPressed k).setReleased k) = .next v ∧ u.getV t = k.zeroExtend 8 ∧ v.getV t = k.zeroExtend 8 ∧
      u.mode = .running ∧ v.mode = .running)

/-! ### Control transfer -/

/-- 40_step_and_control.md R86, JP nnn. -/
def Obligations.JumpSetsThePc : Prop :=
  ∀ (nnn : Addr) (s : State), decodeWord (wordNnn 0x1 nnn) = some (.jp nnn) ∧
    ∃ t, exec (.jp nnn) s = .next t ∧ t.pc.toNat = nnn.toNat ∧ unchangedBut (fun p => p = .pc) s t

/-- 40_step_and_control.md R87 and 60_exceptions.md R163, CALL nnn: the address after the CALL is pushed; with SP = 16
StackOverflow and no other change. -/
def Obligations.CallPushesTheReturnAddress : Prop :=
  ∀ (nnn : Addr) (s : State), decodeWord (wordNnn 0x2 nnn) = some (.call nnn) ∧
    (∀ h : s.sp.val < 16, ∃ t, exec (.call nnn) s = .next t ∧ t.stk[s.sp.val]'h = s.pc + 2#16 ∧
      t.sp.val = s.sp.val + 1 ∧ t.pc.toNat = nnn.toNat ∧
      unchangedBut (fun p => p = .pc ∨ p = .sp ∨ p = .stk ⟨s.sp.val, h⟩) s t) ∧
    (s.sp.val = 16 → ∃ t, exec (.call nnn) s = .next t ∧ haltedFrom .stackOverflow 0#16 s t)

/-- 40_step_and_control.md R88 and 60_exceptions.md R165, RET: pc is the popped entry as it is, the entry keeps its
value; with SP = 0 StackUnderflow and no other change. -/
def Obligations.ReturnPopsTheStack : Prop :=
  ∀ s : State, decodeWord 0x00EE = some .ret ∧
    (∀ h : 0 < s.sp.val, ∃ t, exec .ret s = .next t ∧ t.pc = s.stk[s.sp.val - 1]'(by omega) ∧
      t.sp.val = s.sp.val - 1 ∧ unchangedBut (fun p => p = .pc ∨ p = .sp) s t) ∧
    (s.sp.val = 0 → ∃ t, exec .ret s = .next t ∧ haltedFrom .stackUnderflow 0#16 s t)

/-- 40_step_and_control.md R89, JP V0,nnn: the sum is not reduced modulo 4096. -/
def Obligations.JumpWithOffsetAddsV0 : Prop :=
  ∀ (nnn : Addr) (s : State), decodeWord (wordNnn 0xB nnn) = some (.jpV0 nnn) ∧
    ∃ t, exec (.jpV0 nnn) s = .next t ∧ t.pc.toNat = nnn.toNat + (s.getV 0#4).toNat ∧
      unchangedBut (fun p => p = .pc) s t

/-- 40_step_and_control.md R90, R91: SE Vx,kk and SNE Vx,kk: pc + 4 or pc + 2, and nothing else. -/
def Obligations.SkipsOnAnImmediate : Prop :=
  ∀ (x : Nibble) (kk : Byte) (s : State),
    decodeWord (wordXkk 0x3 x kk) = some (.seImm x kk) ∧ decodeWord (wordXkk 0x4 x kk) = some (.sneImm x kk) ∧
    (∃ t, exec (.seImm x kk) s = .next t ∧ t.pc = (if s.getV x = kk then s.pc + 4#16 else s.pc + 2#16) ∧
      unchangedBut (fun p => p = .pc) s t) ∧
    ∃ t, exec (.sneImm x kk) s = .next t ∧ t.pc = (if s.getV x = kk then s.pc + 2#16 else s.pc + 4#16) ∧
      unchangedBut (fun p => p = .pc) s t

/-- 40_step_and_control.md R92, R93: SE Vx,Vy and SNE Vx,Vy; a word 5xyN or 9xyN with N ≠ 0 is illegal. -/
def Obligations.SkipsOnARegister : Prop :=
  ∀ (x y n : Nibble) (s : State),
    decodeWord (wordOfNibbles 0x5 x y n) = (if n = 0#4 then some (.seReg x y) else none) ∧
    decodeWord (wordOfNibbles 0x9 x y n) = (if n = 0#4 then some (.sneReg x y) else none) ∧
    (∃ t, exec (.seReg x y) s = .next t ∧ t.pc = (if s.getV x = s.getV y then s.pc + 4#16 else s.pc + 2#16) ∧
      unchangedBut (fun p => p = .pc) s t) ∧
    ∃ t, exec (.sneReg x y) s = .next t ∧ t.pc = (if s.getV x = s.getV y then s.pc + 2#16 else s.pc + 4#16) ∧
      unchangedBut (fun p => p = .pc) s t

/-- 40_step_and_control.md R83: the program-counter law over all instructions: a fault leaves pc, all else ends as
`pcLaw` says, each skip by its own condition; after a fetch that succeeded the additions do not wrap. -/
def Obligations.ProgramCounterLaw : Prop :=
  (∀ (i : Instr) (s : State), s.mode = .running → ∃ t, exec i s = .next t ∧
    ((∃ f a, t.mode = .halted f a) ∧ t.pc = s.pc ∨ (∀ f a, t.mode ≠ .halted f a) ∧ pcLaw i s t)) ∧
  ∀ pc : Word, pc.toNat ≤ 4094 → (pc + 2#16).toNat = pc.toNat + 2 ∧ (pc + 4#16).toNat = pc.toNat + 4

/-- 40_step_and_control.md R96, 10_state.md R25 (c): pc stays at most 4098 but for JP V0, which reaches 0x10FE. The
premise on the stack is R25 (d). -/
def Obligations.StepKeepsThePcInRange : Prop :=
  ∀ s t : State, (∀ j : Fin 16, s.stk[j].toNat ≤ 4096) → s.mode = .running → s.pc.toNat ≤ 4094 →
    step s = .next t → t.pc.toNat ≤ 4098 ∨
      t.pc.toNat ≤ 0x10FE ∧ ∃ w nnn, fetch s = .word w ∧ decodeWord w = some (.jpV0 nnn)

/-- 40_step_and_control.md R94, R87, R88: a RET that finds the stack as a CALL left it goes to the instruction after
that CALL and gives back its SP, whatever else happened between. -/
def Obligations.ReturnUndoesTheCall : Prop :=
  ∀ (nnn : Addr) (s t u : State), s.sp.val < 16 → exec (.call nnn) s = .next t → u.sp = t.sp → u.stk = t.stk →
    ∃ r, exec .ret u = .next r ∧ r.pc = s.pc + 2#16 ∧ r.sp = s.sp ∧ r.mode = u.mode

/-! ### Register load, arithmetic, logic, shifts, random -/

/-- 41_alu.md R110, LD Vx,kk. -/
def Obligations.LoadImmediate : Prop :=
  ∀ (x : Nibble) (kk : Byte) (s : State), decodeWord (wordXkk 0x6 x kk) = some (.ldImm x kk) ∧
    ∃ t, exec (.ldImm x kk) s = .next t ∧ t.getV x = kk ∧ t.pc = s.pc + 2#16 ∧
      unchangedBut (fun p => p = .reg x ∨ p = .pc) s t

/-- 41_alu.md R111, ADD Vx,kk: modulo 256, VF not written unless it is Vx. -/
def Obligations.AddImmediateWraps : Prop :=
  ∀ (x : Nibble) (kk : Byte) (s : State), decodeWord (wordXkk 0x7 x kk) = some (.addImm x kk) ∧
    ∃ t, exec (.addImm x kk) s = .next t ∧ (t.getV x).toNat = ((s.getV x).toNat + kk.toNat) % 256 ∧
      t.pc = s.pc + 2#16 ∧ unchangedBut (fun p => p = .reg x ∨ p = .pc) s t

/-- 41_alu.md R112 to R115: LD Vx,Vy, OR, AND, XOR, no flags affected. -/
def Obligations.CopyAndBitwise : Prop :=
  ∀ (x y : Nibble) (s : State),
    (decodeWord (wordOfNibbles 0x8 x y 0x0) = some (.ldReg x y) ∧
      decodeWord (wordOfNibbles 0x8 x y 0x1) = some (.orReg x y) ∧
      decodeWord (wordOfNibbles 0x8 x y 0x2) = some (.andReg x y) ∧
      decodeWord (wordOfNibbles 0x8 x y 0x3) = some (.xorReg x y)) ∧
    (∃ t, exec (.ldReg x y) s = .next t ∧ t.getV x = s.getV y ∧ t.pc = s.pc + 2#16 ∧
      unchangedBut (fun p => p = .reg x ∨ p = .pc) s t) ∧
    (∃ t, exec (.orReg x y) s = .next t ∧ (∀ k < 8, (t.getV x).getLsbD k =
        ((s.getV x).getLsbD k || (s.getV y).getLsbD k)) ∧ t.pc = s.pc + 2#16 ∧
      unchangedBut (fun p => p = .reg x ∨ p = .pc) s t) ∧
    (∃ t, exec (.andReg x y) s = .next t ∧ (∀ k < 8, (t.getV x).getLsbD k =
        ((s.getV x).getLsbD k && (s.getV y).getLsbD k)) ∧ t.pc = s.pc + 2#16 ∧
      unchangedBut (fun p => p = .reg x ∨ p = .pc) s t) ∧
    ∃ t, exec (.xorReg x y) s = .next t ∧ (∀ k < 8, (t.getV x).getLsbD k =
        ((s.getV x).getLsbD k ^^ (s.getV y).getLsbD k)) ∧ t.pc = s.pc + 2#16 ∧
      unchangedBut (fun p => p = .reg x ∨ p = .pc) s t

/-- 41_alu.md R116, R122, ADD Vx,Vy: VF is the carry, kept when x = 0xF. -/
def Obligations.AddRegistersCarries : Prop :=
  ∀ (x y : Nibble) (s : State), decodeWord (wordOfNibbles 0x8 x y 0x4) = some (.addReg x y) ∧
    ∃ t, exec (.addReg x y) s = .next t ∧
      (x ≠ 0xF#4 → (t.getV x).toNat = ((s.getV x).toNat + (s.getV y).toNat) % 256) ∧
      t.getV 0xF#4 = (if (s.getV x).toNat + (s.getV y).toNat > 255 then 1#8 else 0#8) ∧ t.pc = s.pc + 2#16 ∧
      unchangedBut (fun p => p = .reg x ∨ p = .reg 0xF#4 ∨ p = .pc) s t

/-- 41_alu.md R117, R121, R122, SUB Vx,Vy: Vx - Vy modulo 256, VF is no borrow, kept when x = 0xF. -/
def Obligations.SubtractSetsNoBorrow : Prop :=
  ∀ (x y : Nibble) (s : State), decodeWord (wordOfNibbles 0x8 x y 0x5) = some (.subReg x y) ∧
    ∃ t, exec (.subReg x y) s = .next t ∧
      (x ≠ 0xF#4 → ((t.getV x).toNat : Int) = ((s.getV x).toNat - (s.getV y).toNat : Int) % 256) ∧
      t.getV 0xF#4 = (if (s.getV x).toNat ≥ (s.getV y).toNat then 1#8 else 0#8) ∧ t.pc = s.pc + 2#16 ∧
      unchangedBut (fun p => p = .reg x ∨ p = .reg 0xF#4 ∨ p = .pc) s t

/-- 41_alu.md R119, SUBN Vx,Vy: Vy - Vx modulo 256 into Vx, VF is no borrow, kept when x = 0xF. -/
def Obligations.SubtractReversedSetsNoBorrow : Prop :=
  ∀ (x y : Nibble) (s : State), decodeWord (wordOfNibbles 0x8 x y 0x7) = some (.subnReg x y) ∧
    ∃ t, exec (.subnReg x y) s = .next t ∧
      (x ≠ 0xF#4 → ((t.getV x).toNat : Int) = ((s.getV y).toNat - (s.getV x).toNat : Int) % 256) ∧
      t.getV 0xF#4 = (if (s.getV y).toNat ≥ (s.getV x).toNat then 1#8 else 0#8) ∧ t.pc = s.pc + 2#16 ∧
      unchangedBut (fun p => p = .reg x ∨ p = .reg 0xF#4 ∨ p = .pc) s t

/-- 41_alu.md R118, SHR Vx: VF is bit 0 before the shift; every y gives the same operation. -/
def Obligations.ShiftRightByOne : Prop :=
  ∀ (x y : Nibble) (s : State), decodeWord (wordOfNibbles 0x8 x y 0x6) = some (.shr x y) ∧
    ∃ t, exec (.shr x y) s = .next t ∧ (x ≠ 0xF#4 → (t.getV x).toNat = (s.getV x).toNat / 2) ∧
      (t.getV 0xF#4).toNat = (s.getV x).toNat % 2 ∧ t.pc = s.pc + 2#16 ∧
      unchangedBut (fun p => p = .reg x ∨ p = .reg 0xF#4 ∨ p = .pc) s t

/-- 41_alu.md R120, SHL Vx: VF is bit 7 before the shift; every y gives the same operation. -/
def Obligations.ShiftLeftByOne : Prop :=
  ∀ (x y : Nibble) (s : State), decodeWord (wordOfNibbles 0x8 x y 0xE) = some (.shl x y) ∧
    ∃ t, exec (.shl x y) s = .next t ∧ (x ≠ 0xF#4 → (t.getV x).toNat = (s.getV x).toNat * 2 % 256) ∧
      (t.getV 0xF#4).toNat = (s.getV x).toNat / 128 ∧ t.pc = s.pc + 2#16 ∧
      unchangedBut (fun p => p = .reg x ∨ p = .reg 0xF#4 ∨ p = .pc) s t

/-- 41_alu.md R123, RND Vx,kk, for every value of the draw: `Config.rndByte` is a free value, numbered by the model's
own field `draws` (log entry 1), and the next RND takes the next one. -/
def Obligations.RandomByteUnderMask : Prop :=
  ∀ (x : Nibble) (kk : Byte) (s : State), decodeWord (wordXkk 0xC x kk) = some (.rnd x kk) ∧
    ∃ t, exec (.rnd x kk) s = .next t ∧
      (∀ k < 8, (t.getV x).getLsbD k = ((Config.rndByte s.draws).getLsbD k && kk.getLsbD k)) ∧
      t.draws = s.draws + 1 ∧ t.pc = s.pc + 2#16 ∧
      unchangedBut (fun p => p = .reg x ∨ p = .pc ∨ p = .draws) s t

/-! ### Index register and memory -/

/-- 42_index_memory.md R130, R131, R132: LD I,nnn, ADD I,Vx and LD F,Vx: I alone, VF not written. -/
def Obligations.IndexArithmetic : Prop :=
  ∀ (nnn : Addr) (x : Nibble) (s : State),
    (decodeWord (wordNnn 0xA nnn) = some (.ldI nnn) ∧ decodeWord (wordXkk 0xF x 0x1E) = some (.addI x) ∧
      decodeWord (wordXkk 0xF x 0x29) = some (.ldF x)) ∧
    (∃ t, exec (.ldI nnn) s = .next t ∧ t.index.toNat = nnn.toNat ∧ t.pc = s.pc + 2#16 ∧
      unchangedBut (fun p => p = .index ∨ p = .pc) s t) ∧
    (∃ t, exec (.addI x) s = .next t ∧ t.index.toNat = (s.index.toNat % 4096 + (s.getV x).toNat) % 4096 ∧
      t.pc = s.pc + 2#16 ∧ unchangedBut (fun p => p = .index ∨ p = .pc) s t) ∧
    ∃ t, exec (.ldF x) s = .next t ∧ t.index.toNat = (s.getV x).toNat * 5 ∧ t.pc = s.pc + 2#16 ∧
      unchangedBut (fun p => p = .index ∨ p = .pc) s t

/-- 42_index_memory.md R133, LD B,Vx: hundreds, tens and ones at I[11:0], + 1, + 2, or MemoryOutOfBounds(4096) before
any byte is written. The bytes read back in a canonical memory (`Memory.wf`, kept by every step). -/
def Obligations.StoreDecimalDigits : Prop :=
  ∀ (x : Nibble) (s : State), decodeWord (wordXkk 0xF x 0x33) = some (.ldB x) ∧
    (dataBase s + 2 ≤ 4095 → ∃ t, exec (.ldB x) s = .next t ∧ t.pc = s.pc + 2#16 ∧
      (Memory.wf s.mem →
        (Memory.read t.mem (dataBase s)).toNat = (s.getV x).toNat / 100 ∧
        (Memory.read t.mem (dataBase s + 1)).toNat = (s.getV x).toNat / 10 % 10 ∧
        (Memory.read t.mem (dataBase s + 2)).toNat = (s.getV x).toNat % 10) ∧
      unchangedBut (fun p => p = .pc ∨ ∃ a, p = .byte a ∧ dataBase s ≤ a ∧ a ≤ dataBase s + 2) s t) ∧
    (4095 < dataBase s + 2 → ∃ t, exec (.ldB x) s = .next t ∧ haltedFrom .memoryOutOfBounds 4096#16 s t)

/-- 42_index_memory.md R134, LD [I],Vx: V0 to Vx at I[11:0] onward, I unchanged, or MemoryOutOfBounds(4096) before any
byte is written. The bytes read back in a canonical memory. -/
def Obligations.StoreRegisters : Prop :=
  ∀ (x : Nibble) (s : State), decodeWord (wordXkk 0xF x 0x55) = some (.ldMemVx x) ∧
    (dataBase s + x.toNat ≤ 4095 → ∃ t, exec (.ldMemVx x) s = .next t ∧ t.pc = s.pc + 2#16 ∧
      (Memory.wf s.mem → ∀ j : Nibble, j.toNat ≤ x.toNat → Memory.read t.mem (dataBase s + j.toNat) = s.getV j) ∧
      unchangedBut (fun p => p = .pc ∨ ∃ a, p = .byte a ∧ dataBase s ≤ a ∧ a ≤ dataBase s + x.toNat) s t) ∧
    (4095 < dataBase s + x.toNat → ∃ t, exec (.ldMemVx x) s = .next t ∧ haltedFrom .memoryOutOfBounds 4096#16 s t)

/-- 42_index_memory.md R135, LD Vx,[I]: V0 to Vx from I[11:0] onward, I, memory and the registers above Vx unchanged,
or MemoryOutOfBounds(4096) before any register is written. -/
def Obligations.LoadRegisters : Prop :=
  ∀ (x : Nibble) (s : State), decodeWord (wordXkk 0xF x 0x65) = some (.ldVxMem x) ∧
    (dataBase s + x.toNat ≤ 4095 → ∃ t, exec (.ldVxMem x) s = .next t ∧ t.pc = s.pc + 2#16 ∧
      (∀ j : Nibble, j.toNat ≤ x.toNat → t.getV j = Memory.read s.mem (dataBase s + j.toNat)) ∧
      unchangedBut (fun p => p = .pc ∨ ∃ j : Nibble, p = .reg j ∧ j.toNat ≤ x.toNat) s t) ∧
    (4095 < dataBase s + x.toNat → ∃ t, exec (.ldVxMem x) s = .next t ∧ haltedFrom .memoryOutOfBounds 4096#16 s t)

/-! ### Display -/

/-- 43_display.md R144, CLS: all cells 0, dirty set, VF not written. -/
def Obligations.ClearScreen : Prop :=
  ∀ s : State, decodeWord 0x00E0 = some .cls ∧
    ∃ t, exec .cls s = .next t ∧ (∀ cy cx, t.fb.cell cy cx = false) ∧ t.dirty = true ∧ t.pc = s.pc + 2#16 ∧
      unchangedBut (fun p => p = .dirty ∨ p = .pc ∨ ∃ cy cx, p = .cell cy cx) s t

/-- 43_display.md R145, R141, R142, R146, DRW Vx,Vy,n: the target cells of the sprite's 1 bits are toggled, VF is 1
iff one of them was set, dirty is set iff a sprite byte is nonzero; or MemoryOutOfBounds(4096) before anything
changes. -/
def Obligations.DrawSprite : Prop :=
  ∀ (x y n : Nibble) (s : State), decodeWord (wordOfNibbles 0xD x y n) = some (.drw x y n) ∧
    (dataBase s + n.toNat ≤ 4096 →
      let rows := Memory.readBytes s.mem (dataBase s) n.toNat
      let target := spriteTarget ((s.getV x).toNat % 64) ((s.getV y).toNat % 32) rows
      ∃ t, exec (.drw x y n) s = .next t ∧
        (∀ cy cx, target cy cx → t.fb.cell cy cx = !s.fb.cell cy cx) ∧
        (t.getV 0xF#4 = 1#8 ∧ (∃ cy cx, target cy cx ∧ s.fb.cell cy cx = true) ∨
          t.getV 0xF#4 = 0#8 ∧ ∀ cy cx, target cy cx → s.fb.cell cy cx = false) ∧
        (t.dirty = true ↔ s.dirty = true ∨ ∃ b ∈ rows, b ≠ 0#8) ∧ t.pc = s.pc + 2#16 ∧
        unchangedBut (fun p => p = .reg 0xF#4 ∨ p = .dirty ∨ p = .pc ∨ ∃ cy cx, p = .cell cy cx ∧ target cy cx) s t) ∧
    (4096 < dataBase s + n.toNat → ∃ t, exec (.drw x y n) s = .next t ∧ haltedFrom .memoryOutOfBounds 4096#16 s t)

/-- 43_display.md R143: the same DRW twice restores the framebuffer, and the second reports 1 iff the sprite has a 1
bit whose cell was 0 before the first. Where x or y is 0xF the first DRW changes the origin, so those are left to
`DrawSprite`. -/
def Obligations.DrawingTwiceRestoresTheScreen : Prop :=
  ∀ (x y n : Nibble) (s : State), x ≠ 0xF#4 → y ≠ 0xF#4 → dataBase s + n.toNat ≤ 4096 →
    let rows := Memory.readBytes s.mem (dataBase s) n.toNat
    let target := spriteTarget ((s.getV x).toNat % 64) ((s.getV y).toNat % 32) rows
    ∃ t u, exec (.drw x y n) s = .next t ∧ exec (.drw x y n) t = .next u ∧ u.fb = s.fb ∧
      (u.getV 0xF#4 = 1#8 ↔ ∃ cy cx, target cy cx ∧ s.fb.cell cy cx = false) ∧
      unchangedBut (fun p => p = .reg 0xF#4 ∨ p = .dirty ∨ p = .pc) s u

/-- 43_display.md R146: CLS always sets dirty; DRW sets it iff it toggled a cell, that is iff a sprite byte is nonzero,
and else leaves it; no instruction clears it. -/
def Obligations.DirtyFollowsTheScreen : Prop :=
  (∀ s : State, ∃ t, exec .cls s = .next t ∧ t.dirty = true) ∧
  (∀ (x y n : Nibble) (s : State), dataBase s + n.toNat ≤ 4096 → ∃ t, exec (.drw x y n) s = .next t ∧
    (t.fb ≠ s.fb ↔ ∃ b ∈ Memory.readBytes s.mem (dataBase s) n.toNat, b ≠ 0#8) ∧
    (t.fb ≠ s.fb → t.dirty = true) ∧ (t.fb = s.fb → t.dirty = s.dirty)) ∧
  ∀ (i : Instr) (s t : State), exec i s = .next t → s.dirty = true → t.dirty = true

/-! ### Keypad and timers -/

/-- 44_keypad_timers.md R150, R151: SKP Vx and SKNP Vx read the latch of the key in the low four bits of Vx. -/
def Obligations.SkipsOnAKey : Prop :=
  ∀ (x k : Nibble) (s : State), k.toNat = (s.getV x).toNat % 16 →
    (decodeWord (wordXkk 0xE x 0x9E) = some (.skp x) ∧ decodeWord (wordXkk 0xE x 0xA1) = some (.sknp x)) ∧
    (∃ t, exec (.skp x) s = .next t ∧ t.pc = (if s.key[k.toNat]'k.isLt then s.pc + 4#16 else s.pc + 2#16) ∧
      unchangedBut (fun p => p = .pc) s t) ∧
    ∃ t, exec (.sknp x) s = .next t ∧ t.pc = (if s.key[k.toNat]'k.isLt then s.pc + 2#16 else s.pc + 4#16) ∧
      unchangedBut (fun p => p = .pc) s t

/-- 44_keypad_timers.md R152, LD Vx,K: enters the wait and drops a recorded press, pc unchanged; it never completes by
itself, and pressing again a key already down does not end the wait. -/
def Obligations.WaitForKeyParks : Prop :=
  ∀ (x : Nibble) (s : State), decodeWord (wordXkk 0xF x 0x0A) = some (.ldVxK x) ∧
    ∃ t, exec (.ldVxK x) s = .next t ∧ t.mode = .waitingForKey x ∧ t.lkv = false ∧ t.stepResult = .waiting ∧
      unchangedBut (fun p => p = .mode ∨ p = .lkv) s t ∧
      ∀ k : Nibble, s.key[k.toNat]'k.isLt = true → step (t.setPressed k) = .next t

/-- 44_keypad_timers.md R154, R155: LD Vx,DT and LD DT,Vx; writing is the only way DT rises, over every instruction and
over every host operation in every mode. -/
def Obligations.DelayTimerInstructions : Prop :=
  (∀ (x : Nibble) (s : State),
    (decodeWord (wordXkk 0xF x 0x07) = some (.ldVxDt x) ∧ decodeWord (wordXkk 0xF x 0x15) = some (.ldDtVx x)) ∧
    (∃ t, exec (.ldVxDt x) s = .next t ∧ t.getV x = s.dt ∧ t.pc = s.pc + 2#16 ∧
      unchangedBut (fun p => p = .reg x ∨ p = .pc) s t) ∧
    ∃ t, exec (.ldDtVx x) s = .next t ∧ t.dt = s.getV x ∧ t.pc = s.pc + 2#16 ∧
      unchangedBut (fun p => p = .dt ∨ p = .pc) s t) ∧
  (∀ (i : Instr) (s t : State), exec i s = .next t → s.dt.toNat < t.dt.toNat → ∃ x, i = .ldDtVx x) ∧
  ∀ (o : HostOp) (m m' : Session) (r : OpResult), o.apply m = .next (m', r) →
    m.state.dt.toNat < m'.state.dt.toNat →
    o = .step ∧ ∃ x, executes m.state (.ldDtVx x) ∧ m'.state.dt = m.state.getV x

/-- 44_keypad_timers.md R156, LD ST,Vx; the host reads ST (60_exceptions.md R178), and no instruction does: two
machines that differ in ST alone differ in nothing else after it. -/
def Obligations.SoundTimerInstruction : Prop :=
  (∀ (x : Nibble) (s : State), decodeWord (wordXkk 0xF x 0x18) = some (.ldStVx x) ∧
    ∃ t, exec (.ldStVx x) s = .next t ∧ t.st = s.getV x ∧ t.observe.st = s.getV x ∧ t.pc = s.pc + 2#16 ∧
      unchangedBut (fun p => p = .st ∨ p = .pc) s t) ∧
  ∀ (i : Instr) (s : State) (b : Byte), ∃ t u, exec i s = .next t ∧ exec i (s.setSt b) = .next u ∧
    unchangedBut (fun p => p = .st) t u

/-! ### Whole-machine rules over all instructions -/

/-- 10_state.md R12, R15, R17, R19, R24, 20_memory.md R55, 40_step_and_control.md R87, 43_display.md R141: an instruction
writes only what its rule names: who writes VF, I, SP, DT, ST, dirty, LKV and mode; CALL the entry STK[SP] alone, DRW
the target cells of its sprite alone, LD B,Vx and LD [I],Vx their bytes from I[11:0] on alone; none writes a key latch
or LK. -/
def Obligations.EveryInstructionWritesOnlyWhatItNames : Prop :=
  ∀ (i : Instr) (s t : State), exec i s = .next t → unchangedBut (mayWrite i s) s t

/-- 10_state.md R13, R18, R20: what no step reads: dirty, LK while LKV = 0, and I[15:12]. Two machines that differ only
there take steps that differ only there. -/
def Obligations.UnreadStateDoesNotLeak : Prop :=
  (∀ (s : State) (b : Bool), ∃ t u, step s = .next t ∧ step (s.setDirty b) = .next u ∧
    unchangedBut (fun p => p = .dirty) t u) ∧
  (∀ (s : State) (k : Nibble), s.lkv = false → ∃ t u, step s = .next t ∧ step { s with lk := k } = .next u ∧
    unchangedBut (fun p => p = .lk) t u) ∧
  ∀ (s : State) (w : Word), w.toNat % 4096 = s.index.toNat % 4096 → ∃ t u, step s = .next t ∧
    step (s.setIndex w) = .next u ∧ unchangedBut (fun p => p = .index) t u

/-! ### Host operations -/

/-- 60_exceptions.md R174: tick, in every mode; no instruction and no step in any mode ticks: only the two timer writes
change a timer. -/
def Obligations.TickCountsDown : Prop :=
  (∀ m : Session, ∃ t, HostOp.tick.apply m = .next (⟨t, m.stepped⟩, .none) ∧
    t.dt.toNat = m.state.dt.toNat - 1 ∧ t.st.toNat = m.state.st.toNat - 1 ∧
    unchangedBut (fun p => p = .dt ∨ p = .st) m.state t) ∧
  (∀ (i : Instr) (s t : State), exec i s = .next t →
    (t.dt = s.dt ∨ ∃ x, i = .ldDtVx x) ∧ (t.st = s.st ∨ ∃ x, i = .ldStVx x)) ∧
  ∀ s t : State, step s = .next t →
    (t.dt = s.dt ∨ ∃ x, executes s (.ldDtVx x)) ∧ (t.st = s.st ∨ ∃ x, executes s (.ldStVx x))

/-- 60_exceptions.md R175, R176: set_pressed records an edge on a key that was up and does nothing on one that was
down; set_released clears the latch alone. Both in every mode. -/
def Obligations.KeyOperationsDetectEdges : Prop :=
  ∀ (m : Session) (k : Nibble),
    (m.state.key[k.toNat]'k.isLt = false → ∃ t, (HostOp.setPressed k).apply m = .next (⟨t, m.stepped⟩, .none) ∧
      t.key[k.toNat]'k.isLt = true ∧ t.lk = k ∧ t.lkv = true ∧
      unchangedBut (fun p => p = .key k ∨ p = .lk ∨ p = .lkv) m.state t) ∧
    (m.state.key[k.toNat]'k.isLt = true → (HostOp.setPressed k).apply m = .next (m, .none)) ∧
    ∃ t, (HostOp.setReleased k).apply m = .next (⟨t, m.stepped⟩, .none) ∧ t.key[k.toNat]'k.isLt = false ∧
      unchangedBut (fun p => p = .key k) m.state t

/-- 60_exceptions.md R177: clear_dirty clears the flag alone, in every mode. R178: reading changes nothing and shows the
grid, dirty, DT, ST and the mode. 43_display.md R140 (the spec's decision D31): the cell with flat index
cy × 64 + cx is FB[cy][cx]. -/
def Obligations.ReaderClearsDirtyAndReads : Prop :=
  ∀ m : Session,
    (∃ t, HostOp.clearDirty.apply m = .next (⟨t, m.stepped⟩, .none) ∧ t.dirty = false ∧
      unchangedBut (fun p => p = .dirty) m.state t) ∧
    HostOp.read.apply m =
      .next (m, .read ⟨m.state.fb, m.state.dirty, m.state.dt, m.state.st, m.state.mode⟩) ∧
    ∀ (cy : Fin 32) (cx : Fin 64),
      m.state.flatCell ⟨cy.val * 64 + cx.val, by omega⟩ = m.state.fb.cell cy cx

/-- 60_exceptions.md R172, R166: load before the first step copies at most 3584 bytes to 0x200 onward and touches
nothing else; a longer sequence is rejected with no change. The bytes read back in a canonical memory. After a step
R172 gives load no move; that the model then REFUSES it, by the name loadNotDefined, is the model's DESIGN CHOICE, log
entry 3, and no rule of the spec. -/
def Obligations.LoadPlacesTheRom : Prop :=
  ∀ (m : Session) (bytes : List Byte),
    (m.stepped = false → bytes.length ≤ 3584 →
      ∃ t, (HostOp.load bytes).apply m = .next (⟨t, false⟩, .load .ok) ∧
        (Memory.wf m.state.mem → ∀ j, ∀ h : j < bytes.length, Memory.read t.mem (0x200 + j) = bytes[j]'h) ∧
        unchangedBut (fun p => ∃ a, p = .byte a ∧ 0x200 ≤ a ∧ a < 0x200 + bytes.length) m.state t) ∧
    (m.stepped = false → 3584 < bytes.length →
      (HostOp.load bytes).apply m = .next (m, .load (.romTooLarge bytes.length))) ∧
    (m.stepped = true → (HostOp.load bytes).apply m = .refused .loadNotDefined)

/-- 10_state.md R30, 20_memory.md R42, 70_reset_and_hazards.md R191: every value reset leaves, the font table in full.
The model's own field `draws` is not of the spec and is not named. -/
def Obligations.ResetValues : Prop :=
  (∀ r, State.reset.getV r = 0) ∧ State.reset.index = 0 ∧ State.reset.pc = 0x200 ∧ State.reset.sp.val = 0 ∧
  (∀ j : Fin 16, State.reset.stk[j] = 0) ∧ State.reset.dt = 0 ∧ State.reset.st = 0 ∧
  (List.range 16).map (fun d => Memory.readBytes State.reset.mem (5 * d) 5) =
    [[0xF0, 0x90, 0x90, 0x90, 0xF0], [0x20, 0x60, 0x20, 0x20, 0x70], [0xF0, 0x10, 0xF0, 0x80, 0xF0],
     [0xF0, 0x10, 0xF0, 0x10, 0xF0], [0x90, 0x90, 0xF0, 0x10, 0x10], [0xF0, 0x80, 0xF0, 0x10, 0xF0],
     [0xF0, 0x80, 0xF0, 0x90, 0xF0], [0xF0, 0x10, 0x20, 0x40, 0x40], [0xF0, 0x90, 0xF0, 0x90, 0xF0],
     [0xF0, 0x90, 0xF0, 0x10, 0xF0], [0xF0, 0x90, 0xF0, 0x90, 0x90], [0xE0, 0x90, 0xE0, 0x90, 0xE0],
     [0xF0, 0x80, 0x80, 0x80, 0xF0], [0xE0, 0x90, 0x90, 0x90, 0xE0], [0xF0, 0x80, 0xF0, 0x80, 0xF0],
     [0xF0, 0x80, 0xF0, 0x80, 0x80]] ∧
  (∀ a, 0x050 ≤ a → a ≤ 0xFFF → Memory.read State.reset.mem a = 0) ∧
  (∀ cy cx, State.reset.fb.cell cy cx = false) ∧ State.reset.dirty = false ∧
  (∀ k : Nibble, State.reset.key[k.toNat]'k.isLt = false) ∧ State.reset.lkv = false ∧ State.reset.lk = 0 ∧
  State.reset.mode = .running

/-- 70_reset_and_hazards.md R190: reset, in any mode, leaves every piece of state at its reset value, and it is the only
way out of Halted. (`draws`, the model's own field, is not reset: log entry 1.) -/
def Obligations.ResetFromAnyState : Prop :=
  (∀ m : Session, ∃ t, HostOp.reset.apply m = .next (⟨t, false⟩, .none) ∧
    unchangedBut (fun p => p = .draws) State.reset t) ∧
  ∀ (o : HostOp) (m m' : Session) (r : OpResult) (f : Fault) (a : Word), m.state.mode = .halted f a → o ≠ .reset →
    o.apply m = .next (m', r) → m'.state.mode = .halted f a

/-- 10_state.md R25 (f), 60_exceptions.md R168, R181: a halted machine: a step changes nothing and reports the stored
fault again; no operation but reset changes anything but DT, ST, KEY, LKV, LK and dirty. -/
def Obligations.HaltedIsFinal : Prop :=
  ∀ (m : Session) (f : Fault) (a : Word), m.state.mode = .halted f a →
    HostOp.step.apply m = .next (⟨m.state, true⟩, .step (.fault f a)) ∧
    ∀ (o : HostOp) (m' : Session) (r : OpResult), m.stepped = true → o ≠ .reset → o.apply m = .next (m', r) →
      m'.state.mode = .halted f a ∧
      unchangedBut (fun p => p = .dt ∨ p = .st ∨ p = .lkv ∨ p = .lk ∨ p = .dirty ∨ ∃ k, p = .key k) m.state m'.state

/-! ### Invariants -/

/-- 10_state.md R30, R25: the invariants hold at reset. -/
def Obligations.ResetMeetsTheInvariants : Prop := State.reset.Inv ∧ Session.start.Inv

/-- 10_state.md R25: every step, from every state that meets the invariants, keeps them: the memory canonical, I below
4096, pc at most 0x10FE, stack entries at most 4096, a waiting machine at its LD Vx,K, a halted machine at the cause
of its fault. -/
def Obligations.StepKeepsTheInvariants : Prop :=
  ∀ s t : State, s.Inv → step s = .next t → t.Inv

/-- 10_state.md R25, 60_exceptions.md R170, R181: every host operation keeps the invariants, from every session that
meets them. -/
def Obligations.HostOperationsKeepTheInvariants : Prop :=
  ∀ (o : HostOp) (m m' : Session) (r : OpResult), m.Inv → o.apply m = .next (m', r) → m'.Inv

/-- 10_state.md R25: in every order of operations the host can choose, after any loads, every state meets the
invariants, and every step answers a next state that meets them too. -/
def Obligations.ReachableStatesMeetTheInvariants : Prop :=
  ∀ m : Session, Reachable m → m.state.Inv ∧ ∃ t, step m.state = .next t ∧ t.Inv

/-- 20_memory.md R48 (a read returns the last value written): the canonical form makes memories that read alike the
same data. -/
def Obligations.MemoriesThatReadAlikeAreEqual : Prop :=
  ∀ m n : Memory, Memory.wf m → Memory.wf n → (∀ a, a < 4096 → Memory.read m a = Memory.read n a) → m = n

/-- 20_memory.md R53, R50: a byte stored by LD [I],Vx is what the very next fetch sees, where it stands at the next
pc. -/
def Obligations.StoredBytesAreFetched : Prop :=
  ∀ (x : Nibble) (s : State), Memory.wf s.mem → s.pc.toNat + 3 ≤ 4095 → dataBase s = s.pc.toNat + 2 →
    1 ≤ x.toNat → dataBase s + x.toNat ≤ 4095 →
    ∃ t, exec (.ldMemVx x) s = .next t ∧ fetch t = .word (wordOfBytes (s.getV 0#4) (s.getV 1#4))

/-! ### The end of a run -/

/-- 40_step_and_control.md R97 asks a model to define the end of a run; `State.runEnd` is this model's, DESIGN CHOICE, log
entry 8. It is final: a step there changes nothing, and no operation of the host but reset and load takes a machine
out of it. It is found: a Running machine that a step leaves as it is has finished. A halted machine ends with its
fault, a waiting one has not ended (93_implementation_defined.md U21). -/
def Obligations.EndOfARunIsFinal : Prop :=
  (∀ (s : State) (e : RunEnd), s.runEnd = some e → step s = .next s) ∧
  (∀ s : State, s.mode = .running → (step s = .next s ↔ s.runEnd = some .finished)) ∧
  (∀ (s : State) (f : Fault) (a : Word), s.runEnd = some (.fault f a) ↔ s.mode = .halted f a) ∧
  (∀ (s : State) (x : Nibble), s.mode = .waitingForKey x → s.runEnd = none) ∧
  ∀ (o : HostOp) (m m' : Session) (r : OpResult) (e : RunEnd), m.stepped = true → o ≠ .reset →
    m.state.runEnd = some e → o.apply m = .next (m', r) → m'.state.runEnd = some e
end

