-- ==== Sys2Proof/Laws/Decode.lean ====
section
/-! SUPPORT. The fields of a word as arithmetic (30_encoding.md R62's own third column), words put together from
nibbles, bytes and operands as arithmetic, and the fields of such words: what decoding proofs need so that they never
look at single bits. -/

namespace Sys2Proof

/-! ### R62's fields as arithmetic -/

theorem fieldMajor_toNat (w : Word) : (fieldMajor w).toNat = w.toNat / 4096 := by
  have := w.isLt
  simp only [fieldMajor, BitVec.extractLsb'_toNat, Nat.shiftRight_eq_div_pow]
  omega

theorem fieldX_toNat (w : Word) : (fieldX w).toNat = w.toNat / 256 % 16 := by
  simp [fieldX, BitVec.extractLsb'_toNat, Nat.shiftRight_eq_div_pow]

theorem fieldY_toNat (w : Word) : (fieldY w).toNat = w.toNat / 16 % 16 := by
  simp [fieldY, BitVec.extractLsb'_toNat, Nat.shiftRight_eq_div_pow]

theorem fieldN_toNat (w : Word) : (fieldN w).toNat = w.toNat % 16 := by
  simp [fieldN, BitVec.extractLsb'_toNat]

theorem fieldKk_toNat (w : Word) : (fieldKk w).toNat = w.toNat % 256 := by
  simp [fieldKk, BitVec.extractLsb'_toNat]

theorem fieldNnn_toNat (w : Word) : (fieldNnn w).toNat = w.toNat % 4096 := by
  simp [fieldNnn, BitVec.extractLsb'_toNat]

theorem highNibble_toNat (b : Byte) : (highNibble b).toNat = b.toNat / 16 := by
  have := b.isLt
  simp only [highNibble, BitVec.extractLsb'_toNat, Nat.shiftRight_eq_div_pow]
  omega

theorem lowNibble_toNat (b : Byte) : (lowNibble b).toNat = b.toNat % 16 := by
  simp [lowNibble, BitVec.extractLsb'_toNat]

/-! ### Words from their parts, as arithmetic -/

/-- Concatenation (00_scope.md R6) as arithmetic. -/
theorem append_toNat {m n : Nat} (a : BitVec m) (b : BitVec n) :
    (a ++ b).toNat = a.toNat * 2 ^ n + b.toNat := by
  rw [BitVec.toNat_append, ← Nat.shiftLeft_add_eq_or_of_lt b.isLt, Nat.shiftLeft_eq]

theorem wordOfNibbles_toNat (d3 d2 d1 d0 : Nibble) :
    (wordOfNibbles d3 d2 d1 d0).toNat = d3.toNat * 4096 + d2.toNat * 256 + d1.toNat * 16 + d0.toNat := by
  simp only [wordOfNibbles, append_toNat]
  omega

theorem wordNnn_toNat (m : Nibble) (nnn : Addr) : (wordNnn m nnn).toNat = m.toNat * 4096 + nnn.toNat := by
  simp only [wordNnn, append_toNat]
  omega

theorem wordXkk_toNat (m x : Nibble) (kk : Byte) :
    (wordXkk m x kk).toNat = m.toNat * 4096 + x.toNat * 256 + kk.toNat := by
  simp only [wordXkk, append_toNat]
  omega

theorem wordOfBytes_toNat (a b : Byte) : (wordOfBytes a b).toNat = a.toNat * 256 + b.toNat := by
  simp only [wordOfBytes, append_toNat]
  omega

/-! ### Fields of words put together -/

section
variable (m x y n : Nibble) (nnn : Addr) (kk : Byte)

@[simp] theorem fieldMajor_wordOfNibbles : fieldMajor (wordOfNibbles m x y n) = m := by
  apply BitVec.eq_of_toNat_eq; rw [fieldMajor_toNat, wordOfNibbles_toNat]; omega

@[simp] theorem fieldX_wordOfNibbles : fieldX (wordOfNibbles m x y n) = x := by
  apply BitVec.eq_of_toNat_eq; rw [fieldX_toNat, wordOfNibbles_toNat]; omega

@[simp] theorem fieldY_wordOfNibbles : fieldY (wordOfNibbles m x y n) = y := by
  apply BitVec.eq_of_toNat_eq; rw [fieldY_toNat, wordOfNibbles_toNat]; omega

@[simp] theorem fieldN_wordOfNibbles : fieldN (wordOfNibbles m x y n) = n := by
  apply BitVec.eq_of_toNat_eq; rw [fieldN_toNat, wordOfNibbles_toNat]; omega

@[simp] theorem fieldMajor_wordNnn : fieldMajor (wordNnn m nnn) = m := by
  apply BitVec.eq_of_toNat_eq; rw [fieldMajor_toNat, wordNnn_toNat]; omega

@[simp] theorem fieldNnn_wordNnn : fieldNnn (wordNnn m nnn) = nnn := by
  apply BitVec.eq_of_toNat_eq; rw [fieldNnn_toNat, wordNnn_toNat]; omega

@[simp] theorem fieldMajor_wordXkk : fieldMajor (wordXkk m x kk) = m := by
  apply BitVec.eq_of_toNat_eq; rw [fieldMajor_toNat, wordXkk_toNat]; omega

@[simp] theorem fieldX_wordXkk : fieldX (wordXkk m x kk) = x := by
  apply BitVec.eq_of_toNat_eq; rw [fieldX_toNat, wordXkk_toNat]; omega

@[simp] theorem fieldKk_wordXkk : fieldKk (wordXkk m x kk) = kk := by
  apply BitVec.eq_of_toNat_eq; rw [fieldKk_toNat, wordXkk_toNat]; omega

@[simp] theorem fieldY_wordXkk : fieldY (wordXkk m x kk) = highNibble kk := by
  apply BitVec.eq_of_toNat_eq; rw [fieldY_toNat, wordXkk_toNat, highNibble_toNat]; omega

@[simp] theorem fieldN_wordXkk : fieldN (wordXkk m x kk) = lowNibble kk := by
  apply BitVec.eq_of_toNat_eq; rw [fieldN_toNat, wordXkk_toNat, lowNibble_toNat]; omega

end

/-- A word is its four nibbles. -/
theorem wordOfNibbles_fields (w : Word) : wordOfNibbles (fieldMajor w) (fieldX w) (fieldY w) (fieldN w) = w := by
  apply BitVec.eq_of_toNat_eq
  have := w.isLt
  rw [wordOfNibbles_toNat, fieldMajor_toNat, fieldX_toNat, fieldY_toNat, fieldN_toNat]
  omega

/-- A word is its two bytes, read back in memory order. -/
theorem wordOfBytes_bytesOfWord (w : Word) : wordOfBytes (w.extractLsb' 8 8) (w.extractLsb' 0 8) = w := by
  apply BitVec.eq_of_toNat_eq
  have := w.isLt
  rw [wordOfBytes_toNat]
  simp only [BitVec.extractLsb'_toNat, Nat.shiftRight_eq_div_pow]
  omega

end Sys2Proof
end

