-- ==== Sys2Proof/Laws/Memory.lean ====
section
/-! SUPPORT. The laws of memory: a read after a write, other bytes alone, and the canonical form kept by every
operation. -/

namespace Sys2Proof.Machine

/-- Every entry of the list stands above address `a`. -/
abbrev Memory.above (a : Nat) (m : Memory) : Prop := ∀ c ∈ m, a < c.1

theorem Memory.read_of_above {a b : Nat} {m : Memory} (h : Memory.above a m) (hb : b ≤ a) :
    Memory.read m b = Memory.initial b := by
  induction m with
  | nil => rfl
  | cons c m ih =>
    have hc := h c (by simp)
    have : c.1 ≠ b := by omega
    simp only [Memory.read, this, if_false]
    exact ih fun d hd => h d (by simp [hd])

theorem Memory.mem_insert {m : Memory} {a : Nat} {b : Byte} {d : Host.Cell}
    (h : d ∈ Memory.insert m a b) : d = (a, b) ∧ b ≠ Memory.initial a ∨ d ∈ m := by
  induction m with
  | nil =>
    simp only [Memory.insert, Memory.cons] at h
    split at h <;> simp_all
  | cons c m ih =>
    simp only [Memory.insert, Memory.cons] at h
    split at h
    · rcases List.mem_cons.mp h with h | h
      · simp [h]
      · rcases ih h with h | h <;> simp [h]
    · split at h <;> split at h <;> simp_all
      rcases h with h | h <;> simp_all

theorem Memory.wf_nil : Memory.wf [] := by simp [Memory.wf]

theorem Memory.wf_tail {c : Host.Cell} {m : Memory} (h : Memory.wf (c :: m)) :
    Memory.above c.1 m ∧ Memory.wf m :=
  ⟨(List.pairwise_cons.mp h.1).1, (List.pairwise_cons.mp h.1).2, fun d hd => h.2 d (by simp [hd])⟩

theorem Memory.wf_insert {m : Memory} {a : Nat} {b : Byte} (h : Memory.wf m) (ha : a < 4096) :
    Memory.wf (Memory.insert m a b) := by
  refine ⟨?_, fun d hd => ?_⟩
  · induction m with
    | nil =>
      simp only [Memory.insert, Memory.cons]
      split <;> simp
    | cons c m ih =>
      obtain ⟨hab, hm⟩ := Memory.wf_tail h
      simp only [Memory.insert, Memory.cons]
      split
      · refine List.pairwise_cons.mpr ⟨fun d hd => ?_, ih hm⟩
        rcases Memory.mem_insert hd with ⟨rfl, -⟩ | hd
        · assumption
        · exact hab d hd
      · rename_i hca
        split
        · rename_i he
          split
          · exact hm.1
          · exact List.pairwise_cons.mpr ⟨fun d hd => by have := hab d hd; omega, hm.1⟩
        · split
          · exact h.1
          · refine List.pairwise_cons.mpr ⟨fun d hd => ?_, h.1⟩
            rcases List.mem_cons.mp hd with rfl | hd
            · show a < d.1; omega
            · have := hab d hd; show a < d.1; omega
  · rcases Memory.mem_insert hd with ⟨rfl, hb⟩ | hd
    · exact ⟨ha, hb⟩
    · exact h.2 d hd

/-- A write keeps the canonical form. -/
theorem Memory.wf_write {m : Memory} (a : Nat) (b : Byte) (h : Memory.wf m) : Memory.wf (Memory.write m a b) := by
  unfold Memory.write
  split
  · exact Memory.wf_insert h ‹_›
  · exact h

/-- Writing a run of bytes keeps the canonical form. -/
theorem Memory.wf_writeBytes {m : Memory} (a : Nat) (bs : List Byte) (h : Memory.wf m) :
    Memory.wf (Memory.writeBytes m a bs) := by
  induction bs generalizing m a with
  | nil => exact h
  | cons b bs ih => exact ih _ (Memory.wf_write a b h)

theorem Memory.read_cons (a : Nat) (b : Byte) (m : Memory) (x : Nat) (h : Memory.above a m) :
    Memory.read (Memory.cons a b m) x = if x = a then b else Memory.read m x := by
  unfold Memory.cons
  split
  · split
    · subst x; rw [Memory.read_of_above h (Nat.le_refl a)]; simp_all
    · rfl
  · simp only [Memory.read]
    by_cases hx : a = x
    · simp [hx]
    · rw [if_neg hx, if_neg (Ne.symm hx)]

theorem Memory.read_insert {m : Memory} {a : Nat} {b : Byte} (x : Nat) (h : Memory.wf m) :
    Memory.read (Memory.insert m a b) x = if x = a then b else Memory.read m x := by
  induction m with
  | nil => exact Memory.read_cons a b [] x (by simp)
  | cons c m ih =>
    obtain ⟨hab, hm⟩ := Memory.wf_tail h
    simp only [Memory.insert]
    split
    · simp only [Memory.read, ih hm]
      by_cases hx : c.1 = x
      · have : x ≠ a := by omega
        simp [hx, this]
      · simp [hx]
    · split
      · rename_i he
        rw [Memory.read_cons _ _ _ _ (fun d hd => by have := hab d hd; omega)]
        by_cases hx : x = a
        · simp [hx]
        · have : ¬ c.1 = x := by omega
          simp [hx, Memory.read, this]
      · refine Memory.read_cons _ _ _ _ fun d hd => ?_
        rcases List.mem_cons.mp hd with rfl | hd
        · omega
        · have := hab d hd; omega

/-- A read after a write: the byte written at its address, the old byte elsewhere. -/
theorem Memory.read_write {m : Memory} {a : Nat} {b : Byte} (x : Nat) (h : Memory.wf m) (ha : a < 4096) :
    Memory.read (Memory.write m a b) x = if x = a then b else Memory.read m x := by
  simp [Memory.write, ha, Memory.read_insert x h]

theorem Memory.read_cons_other {a : Nat} {b : Byte} {m : Memory} {x : Nat} (hx : x ≠ a) :
    Memory.read (Memory.cons a b m) x = Memory.read m x := by
  unfold Memory.cons
  split
  · rfl
  · simp only [Memory.read]
    rw [if_neg (Ne.symm hx)]

/-- A write leaves every other byte as it was, in any list. -/
theorem Memory.read_write_other {m : Memory} {a : Nat} {b : Byte} {x : Nat} (hx : x ≠ a) :
    Memory.read (Memory.write m a b) x = Memory.read m x := by
  unfold Memory.write
  split
  · induction m with
    | nil => exact Memory.read_cons_other hx
    | cons c m ih =>
      simp only [Memory.insert]
      split
      · simp only [Memory.read, ih]
      · split
        · rename_i he
          rw [Memory.read_cons_other hx, Memory.read, if_neg (by omega)]
        · exact Memory.read_cons_other hx
  · rfl

/-- A read of an address outside a run of written bytes gives what it gave before. -/
theorem Memory.read_writeBytes_outside {m : Memory} {a : Nat} {bs : List Byte} {x : Nat}
    (hx : x < a ∨ a + bs.length ≤ x) : Memory.read (Memory.writeBytes m a bs) x = Memory.read m x := by
  induction bs generalizing m a with
  | nil => rfl
  | cons b bs ih =>
    simp only [List.length_cons] at hx
    rw [Memory.writeBytes, ih (by omega), Memory.read_write_other (by omega)]

/-- A read inside a run of written bytes gives the byte written there. -/
theorem Memory.read_writeBytes_inside {m : Memory} {a : Nat} {bs : List Byte} (k : Nat) (h : Memory.wf m)
    (ha : a + bs.length ≤ 4096) (hk : k < bs.length) :
    Memory.read (Memory.writeBytes m a bs) (a + k) = bs[k] := by
  induction bs generalizing m a k with
  | nil => simp at hk
  | cons b bs ih =>
    simp only [List.length_cons] at ha hk
    rw [Memory.writeBytes]
    cases k with
    | zero =>
      rw [Memory.read_writeBytes_outside (by omega), Memory.read_write _ h (by omega)]
      simp
    | succ k =>
      have := ih k (Memory.wf_write a b h) (a := a + 1) (by omega) (by omega)
      rw [show a + (k + 1) = a + 1 + k by omega, this]
      rfl

theorem Memory.length_readBytes (m : Memory) (a n : Nat) : (Memory.readBytes m a n).length = n := by
  simp [Memory.readBytes]

theorem Memory.getElem_readBytes (m : Memory) (a n k : Nat) (h : k < (Memory.readBytes m a n).length) :
    (Memory.readBytes m a n)[k] = Memory.read m (a + k) := by
  simp [Memory.readBytes]

end Sys2Proof.Machine
end

