-- ==== Sys2Proof/Laws/State.lean ====
section
/-! SUPPORT. What each update of the state leaves in each field: one lemma per field per update, all by rfl, so
that no proof unfolds a record update. -/

namespace Sys2Proof.Machine

variable (s : State)

/-! ### setV -/

@[simp] theorem State.setV_v (x : Nibble) (b : Byte) : (s.setV x b).v = s.v.set x.toNat b x.isLt := rfl
@[simp] theorem State.setV_index (x : Nibble) (b : Byte) : (s.setV x b).index = s.index := rfl
@[simp] theorem State.setV_pc (x : Nibble) (b : Byte) : (s.setV x b).pc = s.pc := rfl
@[simp] theorem State.setV_sp (x : Nibble) (b : Byte) : (s.setV x b).sp = s.sp := rfl
@[simp] theorem State.setV_stk (x : Nibble) (b : Byte) : (s.setV x b).stk = s.stk := rfl
@[simp] theorem State.setV_dt (x : Nibble) (b : Byte) : (s.setV x b).dt = s.dt := rfl
@[simp] theorem State.setV_st (x : Nibble) (b : Byte) : (s.setV x b).st = s.st := rfl
@[simp] theorem State.setV_fb (x : Nibble) (b : Byte) : (s.setV x b).fb = s.fb := rfl
@[simp] theorem State.setV_dirty (x : Nibble) (b : Byte) : (s.setV x b).dirty = s.dirty := rfl
@[simp] theorem State.setV_key (x : Nibble) (b : Byte) : (s.setV x b).key = s.key := rfl
@[simp] theorem State.setV_lkv (x : Nibble) (b : Byte) : (s.setV x b).lkv = s.lkv := rfl
@[simp] theorem State.setV_lk (x : Nibble) (b : Byte) : (s.setV x b).lk = s.lk := rfl
@[simp] theorem State.setV_mode (x : Nibble) (b : Byte) : (s.setV x b).mode = s.mode := rfl
@[simp] theorem State.setV_mem (x : Nibble) (b : Byte) : (s.setV x b).mem = s.mem := rfl
@[simp] theorem State.setV_draws (x : Nibble) (b : Byte) : (s.setV x b).draws = s.draws := rfl

/-! ### setIndex -/

@[simp] theorem State.setIndex_v (w : Word) : (s.setIndex w).v = s.v := rfl
@[simp] theorem State.setIndex_index (w : Word) : (s.setIndex w).index = w := rfl
@[simp] theorem State.setIndex_pc (w : Word) : (s.setIndex w).pc = s.pc := rfl
@[simp] theorem State.setIndex_sp (w : Word) : (s.setIndex w).sp = s.sp := rfl
@[simp] theorem State.setIndex_stk (w : Word) : (s.setIndex w).stk = s.stk := rfl
@[simp] theorem State.setIndex_dt (w : Word) : (s.setIndex w).dt = s.dt := rfl
@[simp] theorem State.setIndex_st (w : Word) : (s.setIndex w).st = s.st := rfl
@[simp] theorem State.setIndex_fb (w : Word) : (s.setIndex w).fb = s.fb := rfl
@[simp] theorem State.setIndex_dirty (w : Word) : (s.setIndex w).dirty = s.dirty := rfl
@[simp] theorem State.setIndex_key (w : Word) : (s.setIndex w).key = s.key := rfl
@[simp] theorem State.setIndex_lkv (w : Word) : (s.setIndex w).lkv = s.lkv := rfl
@[simp] theorem State.setIndex_lk (w : Word) : (s.setIndex w).lk = s.lk := rfl
@[simp] theorem State.setIndex_mode (w : Word) : (s.setIndex w).mode = s.mode := rfl
@[simp] theorem State.setIndex_mem (w : Word) : (s.setIndex w).mem = s.mem := rfl
@[simp] theorem State.setIndex_draws (w : Word) : (s.setIndex w).draws = s.draws := rfl

/-! ### setMem -/

@[simp] theorem State.setMem_v (m : Memory) : (s.setMem m).v = s.v := rfl
@[simp] theorem State.setMem_index (m : Memory) : (s.setMem m).index = s.index := rfl
@[simp] theorem State.setMem_pc (m : Memory) : (s.setMem m).pc = s.pc := rfl
@[simp] theorem State.setMem_sp (m : Memory) : (s.setMem m).sp = s.sp := rfl
@[simp] theorem State.setMem_stk (m : Memory) : (s.setMem m).stk = s.stk := rfl
@[simp] theorem State.setMem_dt (m : Memory) : (s.setMem m).dt = s.dt := rfl
@[simp] theorem State.setMem_st (m : Memory) : (s.setMem m).st = s.st := rfl
@[simp] theorem State.setMem_fb (m : Memory) : (s.setMem m).fb = s.fb := rfl
@[simp] theorem State.setMem_dirty (m : Memory) : (s.setMem m).dirty = s.dirty := rfl
@[simp] theorem State.setMem_key (m : Memory) : (s.setMem m).key = s.key := rfl
@[simp] theorem State.setMem_lkv (m : Memory) : (s.setMem m).lkv = s.lkv := rfl
@[simp] theorem State.setMem_lk (m : Memory) : (s.setMem m).lk = s.lk := rfl
@[simp] theorem State.setMem_mode (m : Memory) : (s.setMem m).mode = s.mode := rfl
@[simp] theorem State.setMem_mem (m : Memory) : (s.setMem m).mem = m := rfl
@[simp] theorem State.setMem_draws (m : Memory) : (s.setMem m).draws = s.draws := rfl

/-! ### setDt -/

@[simp] theorem State.setDt_v (b : Byte) : (s.setDt b).v = s.v := rfl
@[simp] theorem State.setDt_index (b : Byte) : (s.setDt b).index = s.index := rfl
@[simp] theorem State.setDt_pc (b : Byte) : (s.setDt b).pc = s.pc := rfl
@[simp] theorem State.setDt_sp (b : Byte) : (s.setDt b).sp = s.sp := rfl
@[simp] theorem State.setDt_stk (b : Byte) : (s.setDt b).stk = s.stk := rfl
@[simp] theorem State.setDt_dt (b : Byte) : (s.setDt b).dt = b := rfl
@[simp] theorem State.setDt_st (b : Byte) : (s.setDt b).st = s.st := rfl
@[simp] theorem State.setDt_fb (b : Byte) : (s.setDt b).fb = s.fb := rfl
@[simp] theorem State.setDt_dirty (b : Byte) : (s.setDt b).dirty = s.dirty := rfl
@[simp] theorem State.setDt_key (b : Byte) : (s.setDt b).key = s.key := rfl
@[simp] theorem State.setDt_lkv (b : Byte) : (s.setDt b).lkv = s.lkv := rfl
@[simp] theorem State.setDt_lk (b : Byte) : (s.setDt b).lk = s.lk := rfl
@[simp] theorem State.setDt_mode (b : Byte) : (s.setDt b).mode = s.mode := rfl
@[simp] theorem State.setDt_mem (b : Byte) : (s.setDt b).mem = s.mem := rfl
@[simp] theorem State.setDt_draws (b : Byte) : (s.setDt b).draws = s.draws := rfl

/-! ### setSt -/

@[simp] theorem State.setSt_v (b : Byte) : (s.setSt b).v = s.v := rfl
@[simp] theorem State.setSt_index (b : Byte) : (s.setSt b).index = s.index := rfl
@[simp] theorem State.setSt_pc (b : Byte) : (s.setSt b).pc = s.pc := rfl
@[simp] theorem State.setSt_sp (b : Byte) : (s.setSt b).sp = s.sp := rfl
@[simp] theorem State.setSt_stk (b : Byte) : (s.setSt b).stk = s.stk := rfl
@[simp] theorem State.setSt_dt (b : Byte) : (s.setSt b).dt = s.dt := rfl
@[simp] theorem State.setSt_st (b : Byte) : (s.setSt b).st = b := rfl
@[simp] theorem State.setSt_fb (b : Byte) : (s.setSt b).fb = s.fb := rfl
@[simp] theorem State.setSt_dirty (b : Byte) : (s.setSt b).dirty = s.dirty := rfl
@[simp] theorem State.setSt_key (b : Byte) : (s.setSt b).key = s.key := rfl
@[simp] theorem State.setSt_lkv (b : Byte) : (s.setSt b).lkv = s.lkv := rfl
@[simp] theorem State.setSt_lk (b : Byte) : (s.setSt b).lk = s.lk := rfl
@[simp] theorem State.setSt_mode (b : Byte) : (s.setSt b).mode = s.mode := rfl
@[simp] theorem State.setSt_mem (b : Byte) : (s.setSt b).mem = s.mem := rfl
@[simp] theorem State.setSt_draws (b : Byte) : (s.setSt b).draws = s.draws := rfl

/-! ### setFb -/

@[simp] theorem State.setFb_v (g : Grid) : (s.setFb g).v = s.v := rfl
@[simp] theorem State.setFb_index (g : Grid) : (s.setFb g).index = s.index := rfl
@[simp] theorem State.setFb_pc (g : Grid) : (s.setFb g).pc = s.pc := rfl
@[simp] theorem State.setFb_sp (g : Grid) : (s.setFb g).sp = s.sp := rfl
@[simp] theorem State.setFb_stk (g : Grid) : (s.setFb g).stk = s.stk := rfl
@[simp] theorem State.setFb_dt (g : Grid) : (s.setFb g).dt = s.dt := rfl
@[simp] theorem State.setFb_st (g : Grid) : (s.setFb g).st = s.st := rfl
@[simp] theorem State.setFb_fb (g : Grid) : (s.setFb g).fb = g := rfl
@[simp] theorem State.setFb_dirty (g : Grid) : (s.setFb g).dirty = s.dirty := rfl
@[simp] theorem State.setFb_key (g : Grid) : (s.setFb g).key = s.key := rfl
@[simp] theorem State.setFb_lkv (g : Grid) : (s.setFb g).lkv = s.lkv := rfl
@[simp] theorem State.setFb_lk (g : Grid) : (s.setFb g).lk = s.lk := rfl
@[simp] theorem State.setFb_mode (g : Grid) : (s.setFb g).mode = s.mode := rfl
@[simp] theorem State.setFb_mem (g : Grid) : (s.setFb g).mem = s.mem := rfl
@[simp] theorem State.setFb_draws (g : Grid) : (s.setFb g).draws = s.draws := rfl

/-! ### setDirty -/

@[simp] theorem State.setDirty_v (b : Bool) : (s.setDirty b).v = s.v := rfl
@[simp] theorem State.setDirty_index (b : Bool) : (s.setDirty b).index = s.index := rfl
@[simp] theorem State.setDirty_pc (b : Bool) : (s.setDirty b).pc = s.pc := rfl
@[simp] theorem State.setDirty_sp (b : Bool) : (s.setDirty b).sp = s.sp := rfl
@[simp] theorem State.setDirty_stk (b : Bool) : (s.setDirty b).stk = s.stk := rfl
@[simp] theorem State.setDirty_dt (b : Bool) : (s.setDirty b).dt = s.dt := rfl
@[simp] theorem State.setDirty_st (b : Bool) : (s.setDirty b).st = s.st := rfl
@[simp] theorem State.setDirty_fb (b : Bool) : (s.setDirty b).fb = s.fb := rfl
@[simp] theorem State.setDirty_dirty (b : Bool) : (s.setDirty b).dirty = b := rfl
@[simp] theorem State.setDirty_key (b : Bool) : (s.setDirty b).key = s.key := rfl
@[simp] theorem State.setDirty_lkv (b : Bool) : (s.setDirty b).lkv = s.lkv := rfl
@[simp] theorem State.setDirty_lk (b : Bool) : (s.setDirty b).lk = s.lk := rfl
@[simp] theorem State.setDirty_mode (b : Bool) : (s.setDirty b).mode = s.mode := rfl
@[simp] theorem State.setDirty_mem (b : Bool) : (s.setDirty b).mem = s.mem := rfl
@[simp] theorem State.setDirty_draws (b : Bool) : (s.setDirty b).draws = s.draws := rfl

/-! ### setLkv -/

@[simp] theorem State.setLkv_v (b : Bool) : (s.setLkv b).v = s.v := rfl
@[simp] theorem State.setLkv_index (b : Bool) : (s.setLkv b).index = s.index := rfl
@[simp] theorem State.setLkv_pc (b : Bool) : (s.setLkv b).pc = s.pc := rfl
@[simp] theorem State.setLkv_sp (b : Bool) : (s.setLkv b).sp = s.sp := rfl
@[simp] theorem State.setLkv_stk (b : Bool) : (s.setLkv b).stk = s.stk := rfl
@[simp] theorem State.setLkv_dt (b : Bool) : (s.setLkv b).dt = s.dt := rfl
@[simp] theorem State.setLkv_st (b : Bool) : (s.setLkv b).st = s.st := rfl
@[simp] theorem State.setLkv_fb (b : Bool) : (s.setLkv b).fb = s.fb := rfl
@[simp] theorem State.setLkv_dirty (b : Bool) : (s.setLkv b).dirty = s.dirty := rfl
@[simp] theorem State.setLkv_key (b : Bool) : (s.setLkv b).key = s.key := rfl
@[simp] theorem State.setLkv_lkv (b : Bool) : (s.setLkv b).lkv = b := rfl
@[simp] theorem State.setLkv_lk (b : Bool) : (s.setLkv b).lk = s.lk := rfl
@[simp] theorem State.setLkv_mode (b : Bool) : (s.setLkv b).mode = s.mode := rfl
@[simp] theorem State.setLkv_mem (b : Bool) : (s.setLkv b).mem = s.mem := rfl
@[simp] theorem State.setLkv_draws (b : Bool) : (s.setLkv b).draws = s.draws := rfl

/-! ### setMode -/

@[simp] theorem State.setMode_v (m : Mode) : (s.setMode m).v = s.v := rfl
@[simp] theorem State.setMode_index (m : Mode) : (s.setMode m).index = s.index := rfl
@[simp] theorem State.setMode_pc (m : Mode) : (s.setMode m).pc = s.pc := rfl
@[simp] theorem State.setMode_sp (m : Mode) : (s.setMode m).sp = s.sp := rfl
@[simp] theorem State.setMode_stk (m : Mode) : (s.setMode m).stk = s.stk := rfl
@[simp] theorem State.setMode_dt (m : Mode) : (s.setMode m).dt = s.dt := rfl
@[simp] theorem State.setMode_st (m : Mode) : (s.setMode m).st = s.st := rfl
@[simp] theorem State.setMode_fb (m : Mode) : (s.setMode m).fb = s.fb := rfl
@[simp] theorem State.setMode_dirty (m : Mode) : (s.setMode m).dirty = s.dirty := rfl
@[simp] theorem State.setMode_key (m : Mode) : (s.setMode m).key = s.key := rfl
@[simp] theorem State.setMode_lkv (m : Mode) : (s.setMode m).lkv = s.lkv := rfl
@[simp] theorem State.setMode_lk (m : Mode) : (s.setMode m).lk = s.lk := rfl
@[simp] theorem State.setMode_mode (m : Mode) : (s.setMode m).mode = m := rfl
@[simp] theorem State.setMode_mem (m : Mode) : (s.setMode m).mem = s.mem := rfl
@[simp] theorem State.setMode_draws (m : Mode) : (s.setMode m).draws = s.draws := rfl

/-! ### countDraw -/

@[simp] theorem State.countDraw_v : (s.countDraw).v = s.v := rfl
@[simp] theorem State.countDraw_index : (s.countDraw).index = s.index := rfl
@[simp] theorem State.countDraw_pc : (s.countDraw).pc = s.pc := rfl
@[simp] theorem State.countDraw_sp : (s.countDraw).sp = s.sp := rfl
@[simp] theorem State.countDraw_stk : (s.countDraw).stk = s.stk := rfl
@[simp] theorem State.countDraw_dt : (s.countDraw).dt = s.dt := rfl
@[simp] theorem State.countDraw_st : (s.countDraw).st = s.st := rfl
@[simp] theorem State.countDraw_fb : (s.countDraw).fb = s.fb := rfl
@[simp] theorem State.countDraw_dirty : (s.countDraw).dirty = s.dirty := rfl
@[simp] theorem State.countDraw_key : (s.countDraw).key = s.key := rfl
@[simp] theorem State.countDraw_lkv : (s.countDraw).lkv = s.lkv := rfl
@[simp] theorem State.countDraw_lk : (s.countDraw).lk = s.lk := rfl
@[simp] theorem State.countDraw_mode : (s.countDraw).mode = s.mode := rfl
@[simp] theorem State.countDraw_mem : (s.countDraw).mem = s.mem := rfl
@[simp] theorem State.countDraw_draws : (s.countDraw).draws = s.draws + 1 := rfl

/-! ### push -/

@[simp] theorem State.push_v (w : Word) (h : s.sp.val < 16) : (s.push w h).v = s.v := rfl
@[simp] theorem State.push_index (w : Word) (h : s.sp.val < 16) : (s.push w h).index = s.index := rfl
@[simp] theorem State.push_pc (w : Word) (h : s.sp.val < 16) : (s.push w h).pc = s.pc := rfl
@[simp] theorem State.push_sp (w : Word) (h : s.sp.val < 16) : (s.push w h).sp = ⟨s.sp.val + 1, by omega⟩ := rfl
@[simp] theorem State.push_stk (w : Word) (h : s.sp.val < 16) : (s.push w h).stk = s.stk.set s.sp.val w h := rfl
@[simp] theorem State.push_dt (w : Word) (h : s.sp.val < 16) : (s.push w h).dt = s.dt := rfl
@[simp] theorem State.push_st (w : Word) (h : s.sp.val < 16) : (s.push w h).st = s.st := rfl
@[simp] theorem State.push_fb (w : Word) (h : s.sp.val < 16) : (s.push w h).fb = s.fb := rfl
@[simp] theorem State.push_dirty (w : Word) (h : s.sp.val < 16) : (s.push w h).dirty = s.dirty := rfl
@[simp] theorem State.push_key (w : Word) (h : s.sp.val < 16) : (s.push w h).key = s.key := rfl
@[simp] theorem State.push_lkv (w : Word) (h : s.sp.val < 16) : (s.push w h).lkv = s.lkv := rfl
@[simp] theorem State.push_lk (w : Word) (h : s.sp.val < 16) : (s.push w h).lk = s.lk := rfl
@[simp] theorem State.push_mode (w : Word) (h : s.sp.val < 16) : (s.push w h).mode = s.mode := rfl
@[simp] theorem State.push_mem (w : Word) (h : s.sp.val < 16) : (s.push w h).mem = s.mem := rfl
@[simp] theorem State.push_draws (w : Word) (h : s.sp.val < 16) : (s.push w h).draws = s.draws := rfl

/-! ### pop -/

@[simp] theorem State.pop_v : (s.pop).v = s.v := rfl
@[simp] theorem State.pop_index : (s.pop).index = s.index := rfl
@[simp] theorem State.pop_pc : (s.pop).pc = s.pc := rfl
@[simp] theorem State.pop_sp : (s.pop).sp = ⟨s.sp.val - 1, by omega⟩ := rfl
@[simp] theorem State.pop_stk : (s.pop).stk = s.stk := rfl
@[simp] theorem State.pop_dt : (s.pop).dt = s.dt := rfl
@[simp] theorem State.pop_st : (s.pop).st = s.st := rfl
@[simp] theorem State.pop_fb : (s.pop).fb = s.fb := rfl
@[simp] theorem State.pop_dirty : (s.pop).dirty = s.dirty := rfl
@[simp] theorem State.pop_key : (s.pop).key = s.key := rfl
@[simp] theorem State.pop_lkv : (s.pop).lkv = s.lkv := rfl
@[simp] theorem State.pop_lk : (s.pop).lk = s.lk := rfl
@[simp] theorem State.pop_mode : (s.pop).mode = s.mode := rfl
@[simp] theorem State.pop_mem : (s.pop).mem = s.mem := rfl
@[simp] theorem State.pop_draws : (s.pop).draws = s.draws := rfl

/-! ### setPc -/

@[simp] theorem State.setPc_v (w : Word) : (s.setPc w).v = s.v := rfl
@[simp] theorem State.setPc_index (w : Word) : (s.setPc w).index = s.index := rfl
@[simp] theorem State.setPc_pc (w : Word) : (s.setPc w).pc = w := rfl
@[simp] theorem State.setPc_sp (w : Word) : (s.setPc w).sp = s.sp := rfl
@[simp] theorem State.setPc_stk (w : Word) : (s.setPc w).stk = s.stk := rfl
@[simp] theorem State.setPc_dt (w : Word) : (s.setPc w).dt = s.dt := rfl
@[simp] theorem State.setPc_st (w : Word) : (s.setPc w).st = s.st := rfl
@[simp] theorem State.setPc_fb (w : Word) : (s.setPc w).fb = s.fb := rfl
@[simp] theorem State.setPc_dirty (w : Word) : (s.setPc w).dirty = s.dirty := rfl
@[simp] theorem State.setPc_key (w : Word) : (s.setPc w).key = s.key := rfl
@[simp] theorem State.setPc_lkv (w : Word) : (s.setPc w).lkv = s.lkv := rfl
@[simp] theorem State.setPc_lk (w : Word) : (s.setPc w).lk = s.lk := rfl
@[simp] theorem State.setPc_mode (w : Word) : (s.setPc w).mode = s.mode := rfl
@[simp] theorem State.setPc_mem (w : Word) : (s.setPc w).mem = s.mem := rfl
@[simp] theorem State.setPc_draws (w : Word) : (s.setPc w).draws = s.draws := rfl

/-! ### advance -/

@[simp] theorem State.advance_v : (s.advance).v = s.v := rfl
@[simp] theorem State.advance_index : (s.advance).index = s.index := rfl
@[simp] theorem State.advance_pc : (s.advance).pc = s.pc + 2#16 := rfl
@[simp] theorem State.advance_sp : (s.advance).sp = s.sp := rfl
@[simp] theorem State.advance_stk : (s.advance).stk = s.stk := rfl
@[simp] theorem State.advance_dt : (s.advance).dt = s.dt := rfl
@[simp] theorem State.advance_st : (s.advance).st = s.st := rfl
@[simp] theorem State.advance_fb : (s.advance).fb = s.fb := rfl
@[simp] theorem State.advance_dirty : (s.advance).dirty = s.dirty := rfl
@[simp] theorem State.advance_key : (s.advance).key = s.key := rfl
@[simp] theorem State.advance_lkv : (s.advance).lkv = s.lkv := rfl
@[simp] theorem State.advance_lk : (s.advance).lk = s.lk := rfl
@[simp] theorem State.advance_mode : (s.advance).mode = s.mode := rfl
@[simp] theorem State.advance_mem : (s.advance).mem = s.mem := rfl
@[simp] theorem State.advance_draws : (s.advance).draws = s.draws := rfl

/-! ### skip -/

@[simp] theorem State.skip_v : (s.skip).v = s.v := rfl
@[simp] theorem State.skip_index : (s.skip).index = s.index := rfl
@[simp] theorem State.skip_pc : (s.skip).pc = s.pc + 4#16 := rfl
@[simp] theorem State.skip_sp : (s.skip).sp = s.sp := rfl
@[simp] theorem State.skip_stk : (s.skip).stk = s.stk := rfl
@[simp] theorem State.skip_dt : (s.skip).dt = s.dt := rfl
@[simp] theorem State.skip_st : (s.skip).st = s.st := rfl
@[simp] theorem State.skip_fb : (s.skip).fb = s.fb := rfl
@[simp] theorem State.skip_dirty : (s.skip).dirty = s.dirty := rfl
@[simp] theorem State.skip_key : (s.skip).key = s.key := rfl
@[simp] theorem State.skip_lkv : (s.skip).lkv = s.lkv := rfl
@[simp] theorem State.skip_lk : (s.skip).lk = s.lk := rfl
@[simp] theorem State.skip_mode : (s.skip).mode = s.mode := rfl
@[simp] theorem State.skip_mem : (s.skip).mem = s.mem := rfl
@[simp] theorem State.skip_draws : (s.skip).draws = s.draws := rfl

/-! ### raise -/

@[simp] theorem State.raise_v (f : Fault) (a : Word) : (s.raise f a).v = s.v := rfl
@[simp] theorem State.raise_index (f : Fault) (a : Word) : (s.raise f a).index = s.index := rfl
@[simp] theorem State.raise_pc (f : Fault) (a : Word) : (s.raise f a).pc = s.pc := rfl
@[simp] theorem State.raise_sp (f : Fault) (a : Word) : (s.raise f a).sp = s.sp := rfl
@[simp] theorem State.raise_stk (f : Fault) (a : Word) : (s.raise f a).stk = s.stk := rfl
@[simp] theorem State.raise_dt (f : Fault) (a : Word) : (s.raise f a).dt = s.dt := rfl
@[simp] theorem State.raise_st (f : Fault) (a : Word) : (s.raise f a).st = s.st := rfl
@[simp] theorem State.raise_fb (f : Fault) (a : Word) : (s.raise f a).fb = s.fb := rfl
@[simp] theorem State.raise_dirty (f : Fault) (a : Word) : (s.raise f a).dirty = s.dirty := rfl
@[simp] theorem State.raise_key (f : Fault) (a : Word) : (s.raise f a).key = s.key := rfl
@[simp] theorem State.raise_lkv (f : Fault) (a : Word) : (s.raise f a).lkv = s.lkv := rfl
@[simp] theorem State.raise_lk (f : Fault) (a : Word) : (s.raise f a).lk = s.lk := rfl
@[simp] theorem State.raise_mode (f : Fault) (a : Word) : (s.raise f a).mode = .halted f a := rfl
@[simp] theorem State.raise_mem (f : Fault) (a : Word) : (s.raise f a).mem = s.mem := rfl
@[simp] theorem State.raise_draws (f : Fault) (a : Word) : (s.raise f a).draws = s.draws := rfl

/-! ### loadRegisters -/

@[simp] theorem State.loadRegisters_index (x : Nibble) : (s.loadRegisters x).index = s.index := rfl
@[simp] theorem State.loadRegisters_pc (x : Nibble) : (s.loadRegisters x).pc = s.pc := rfl
@[simp] theorem State.loadRegisters_sp (x : Nibble) : (s.loadRegisters x).sp = s.sp := rfl
@[simp] theorem State.loadRegisters_stk (x : Nibble) : (s.loadRegisters x).stk = s.stk := rfl
@[simp] theorem State.loadRegisters_dt (x : Nibble) : (s.loadRegisters x).dt = s.dt := rfl
@[simp] theorem State.loadRegisters_st (x : Nibble) : (s.loadRegisters x).st = s.st := rfl
@[simp] theorem State.loadRegisters_fb (x : Nibble) : (s.loadRegisters x).fb = s.fb := rfl
@[simp] theorem State.loadRegisters_dirty (x : Nibble) : (s.loadRegisters x).dirty = s.dirty := rfl
@[simp] theorem State.loadRegisters_key (x : Nibble) : (s.loadRegisters x).key = s.key := rfl
@[simp] theorem State.loadRegisters_lkv (x : Nibble) : (s.loadRegisters x).lkv = s.lkv := rfl
@[simp] theorem State.loadRegisters_lk (x : Nibble) : (s.loadRegisters x).lk = s.lk := rfl
@[simp] theorem State.loadRegisters_mode (x : Nibble) : (s.loadRegisters x).mode = s.mode := rfl
@[simp] theorem State.loadRegisters_mem (x : Nibble) : (s.loadRegisters x).mem = s.mem := rfl
@[simp] theorem State.loadRegisters_draws (x : Nibble) : (s.loadRegisters x).draws = s.draws := rfl

/-! ### tick -/

@[simp] theorem State.tick_v : (s.tick).v = s.v := rfl
@[simp] theorem State.tick_index : (s.tick).index = s.index := rfl
@[simp] theorem State.tick_pc : (s.tick).pc = s.pc := rfl
@[simp] theorem State.tick_sp : (s.tick).sp = s.sp := rfl
@[simp] theorem State.tick_stk : (s.tick).stk = s.stk := rfl
@[simp] theorem State.tick_dt : (s.tick).dt = countDown s.dt := rfl
@[simp] theorem State.tick_st : (s.tick).st = countDown s.st := rfl
@[simp] theorem State.tick_fb : (s.tick).fb = s.fb := rfl
@[simp] theorem State.tick_dirty : (s.tick).dirty = s.dirty := rfl
@[simp] theorem State.tick_key : (s.tick).key = s.key := rfl
@[simp] theorem State.tick_lkv : (s.tick).lkv = s.lkv := rfl
@[simp] theorem State.tick_lk : (s.tick).lk = s.lk := rfl
@[simp] theorem State.tick_mode : (s.tick).mode = s.mode := rfl
@[simp] theorem State.tick_mem : (s.tick).mem = s.mem := rfl
@[simp] theorem State.tick_draws : (s.tick).draws = s.draws := rfl

/-! ### setReleased -/

@[simp] theorem State.setReleased_v (k : Nibble) : (s.setReleased k).v = s.v := rfl
@[simp] theorem State.setReleased_index (k : Nibble) : (s.setReleased k).index = s.index := rfl
@[simp] theorem State.setReleased_pc (k : Nibble) : (s.setReleased k).pc = s.pc := rfl
@[simp] theorem State.setReleased_sp (k : Nibble) : (s.setReleased k).sp = s.sp := rfl
@[simp] theorem State.setReleased_stk (k : Nibble) : (s.setReleased k).stk = s.stk := rfl
@[simp] theorem State.setReleased_dt (k : Nibble) : (s.setReleased k).dt = s.dt := rfl
@[simp] theorem State.setReleased_st (k : Nibble) : (s.setReleased k).st = s.st := rfl
@[simp] theorem State.setReleased_fb (k : Nibble) : (s.setReleased k).fb = s.fb := rfl
@[simp] theorem State.setReleased_dirty (k : Nibble) : (s.setReleased k).dirty = s.dirty := rfl
@[simp] theorem State.setReleased_key (k : Nibble) : (s.setReleased k).key = s.key.set k.toNat false k.isLt := rfl
@[simp] theorem State.setReleased_lkv (k : Nibble) : (s.setReleased k).lkv = s.lkv := rfl
@[simp] theorem State.setReleased_lk (k : Nibble) : (s.setReleased k).lk = s.lk := rfl
@[simp] theorem State.setReleased_mode (k : Nibble) : (s.setReleased k).mode = s.mode := rfl
@[simp] theorem State.setReleased_mem (k : Nibble) : (s.setReleased k).mem = s.mem := rfl
@[simp] theorem State.setReleased_draws (k : Nibble) : (s.setReleased k).draws = s.draws := rfl

/-! ### clearDirty -/

@[simp] theorem State.clearDirty_v : (s.clearDirty).v = s.v := rfl
@[simp] theorem State.clearDirty_index : (s.clearDirty).index = s.index := rfl
@[simp] theorem State.clearDirty_pc : (s.clearDirty).pc = s.pc := rfl
@[simp] theorem State.clearDirty_sp : (s.clearDirty).sp = s.sp := rfl
@[simp] theorem State.clearDirty_stk : (s.clearDirty).stk = s.stk := rfl
@[simp] theorem State.clearDirty_dt : (s.clearDirty).dt = s.dt := rfl
@[simp] theorem State.clearDirty_st : (s.clearDirty).st = s.st := rfl
@[simp] theorem State.clearDirty_fb : (s.clearDirty).fb = s.fb := rfl
@[simp] theorem State.clearDirty_dirty : (s.clearDirty).dirty = false := rfl
@[simp] theorem State.clearDirty_key : (s.clearDirty).key = s.key := rfl
@[simp] theorem State.clearDirty_lkv : (s.clearDirty).lkv = s.lkv := rfl
@[simp] theorem State.clearDirty_lk : (s.clearDirty).lk = s.lk := rfl
@[simp] theorem State.clearDirty_mode : (s.clearDirty).mode = s.mode := rfl
@[simp] theorem State.clearDirty_mem : (s.clearDirty).mem = s.mem := rfl
@[simp] theorem State.clearDirty_draws : (s.clearDirty).draws = s.draws := rfl

/-! ### placeRom -/

@[simp] theorem State.placeRom_v (bytes : List Byte) : (s.placeRom bytes).v = s.v := rfl
@[simp] theorem State.placeRom_index (bytes : List Byte) : (s.placeRom bytes).index = s.index := rfl
@[simp] theorem State.placeRom_pc (bytes : List Byte) : (s.placeRom bytes).pc = s.pc := rfl
@[simp] theorem State.placeRom_sp (bytes : List Byte) : (s.placeRom bytes).sp = s.sp := rfl
@[simp] theorem State.placeRom_stk (bytes : List Byte) : (s.placeRom bytes).stk = s.stk := rfl
@[simp] theorem State.placeRom_dt (bytes : List Byte) : (s.placeRom bytes).dt = s.dt := rfl
@[simp] theorem State.placeRom_st (bytes : List Byte) : (s.placeRom bytes).st = s.st := rfl
@[simp] theorem State.placeRom_fb (bytes : List Byte) : (s.placeRom bytes).fb = s.fb := rfl
@[simp] theorem State.placeRom_dirty (bytes : List Byte) : (s.placeRom bytes).dirty = s.dirty := rfl
@[simp] theorem State.placeRom_key (bytes : List Byte) : (s.placeRom bytes).key = s.key := rfl
@[simp] theorem State.placeRom_lkv (bytes : List Byte) : (s.placeRom bytes).lkv = s.lkv := rfl
@[simp] theorem State.placeRom_lk (bytes : List Byte) : (s.placeRom bytes).lk = s.lk := rfl
@[simp] theorem State.placeRom_mode (bytes : List Byte) : (s.placeRom bytes).mode = s.mode := rfl
@[simp] theorem State.placeRom_mem (bytes : List Byte) : (s.placeRom bytes).mem = Memory.writeBytes s.mem 0x200 bytes := rfl
@[simp] theorem State.placeRom_draws (bytes : List Byte) : (s.placeRom bytes).draws = s.draws := rfl

/-! ### Register reads and the data base through updates that do not touch them -/

@[simp] theorem dataBase_setV (x : Nibble) (b : Byte) : dataBase (s.setV x b) = dataBase s := rfl
@[simp] theorem fetch_setV (x : Nibble) (b : Byte) : fetch (s.setV x b) = fetch s := rfl
@[simp] theorem State.getV_setIndex (w : Word) (r : Nibble) : (s.setIndex w).getV r = s.getV r := rfl
@[simp] theorem fetch_setIndex (w : Word) : fetch (s.setIndex w) = fetch s := rfl
@[simp] theorem State.getV_setMem (m : Memory) (r : Nibble) : (s.setMem m).getV r = s.getV r := rfl
@[simp] theorem dataBase_setMem (m : Memory) : dataBase (s.setMem m) = dataBase s := rfl
@[simp] theorem State.getV_setDt (b : Byte) (r : Nibble) : (s.setDt b).getV r = s.getV r := rfl
@[simp] theorem dataBase_setDt (b : Byte) : dataBase (s.setDt b) = dataBase s := rfl
@[simp] theorem fetch_setDt (b : Byte) : fetch (s.setDt b) = fetch s := rfl
@[simp] theorem State.getV_setSt (b : Byte) (r : Nibble) : (s.setSt b).getV r = s.getV r := rfl
@[simp] theorem dataBase_setSt (b : Byte) : dataBase (s.setSt b) = dataBase s := rfl
@[simp] theorem fetch_setSt (b : Byte) : fetch (s.setSt b) = fetch s := rfl
@[simp] theorem State.getV_setFb (g : Grid) (r : Nibble) : (s.setFb g).getV r = s.getV r := rfl
@[simp] theorem dataBase_setFb (g : Grid) : dataBase (s.setFb g) = dataBase s := rfl
@[simp] theorem fetch_setFb (g : Grid) : fetch (s.setFb g) = fetch s := rfl
@[simp] theorem State.getV_setDirty (b : Bool) (r : Nibble) : (s.setDirty b).getV r = s.getV r := rfl
@[simp] theorem dataBase_setDirty (b : Bool) : dataBase (s.setDirty b) = dataBase s := rfl
@[simp] theorem fetch_setDirty (b : Bool) : fetch (s.setDirty b) = fetch s := rfl
@[simp] theorem State.getV_setLkv (b : Bool) (r : Nibble) : (s.setLkv b).getV r = s.getV r := rfl
@[simp] theorem dataBase_setLkv (b : Bool) : dataBase (s.setLkv b) = dataBase s := rfl
@[simp] theorem fetch_setLkv (b : Bool) : fetch (s.setLkv b) = fetch s := rfl
@[simp] theorem State.getV_setMode (m : Mode) (r : Nibble) : (s.setMode m).getV r = s.getV r := rfl
@[simp] theorem dataBase_setMode (m : Mode) : dataBase (s.setMode m) = dataBase s := rfl
@[simp] theorem fetch_setMode (m : Mode) : fetch (s.setMode m) = fetch s := rfl
@[simp] theorem State.getV_countDraw (r : Nibble) : (s.countDraw).getV r = s.getV r := rfl
@[simp] theorem dataBase_countDraw : dataBase (s.countDraw) = dataBase s := rfl
@[simp] theorem fetch_countDraw : fetch (s.countDraw) = fetch s := rfl
@[simp] theorem State.getV_push (w : Word) (h : s.sp.val < 16) (r : Nibble) : (s.push w h).getV r = s.getV r := rfl
@[simp] theorem dataBase_push (w : Word) (h : s.sp.val < 16) : dataBase (s.push w h) = dataBase s := rfl
@[simp] theorem fetch_push (w : Word) (h : s.sp.val < 16) : fetch (s.push w h) = fetch s := rfl
@[simp] theorem State.getV_pop (r : Nibble) : (s.pop).getV r = s.getV r := rfl
@[simp] theorem dataBase_pop : dataBase (s.pop) = dataBase s := rfl
@[simp] theorem fetch_pop : fetch (s.pop) = fetch s := rfl
@[simp] theorem State.getV_setPc (w : Word) (r : Nibble) : (s.setPc w).getV r = s.getV r := rfl
@[simp] theorem dataBase_setPc (w : Word) : dataBase (s.setPc w) = dataBase s := rfl
@[simp] theorem State.getV_advance (r : Nibble) : (s.advance).getV r = s.getV r := rfl
@[simp] theorem dataBase_advance : dataBase (s.advance) = dataBase s := rfl
@[simp] theorem State.getV_skip (r : Nibble) : (s.skip).getV r = s.getV r := rfl
@[simp] theorem dataBase_skip : dataBase (s.skip) = dataBase s := rfl
@[simp] theorem State.getV_raise (f : Fault) (a : Word) (r : Nibble) : (s.raise f a).getV r = s.getV r := rfl
@[simp] theorem dataBase_raise (f : Fault) (a : Word) : dataBase (s.raise f a) = dataBase s := rfl
@[simp] theorem fetch_raise (f : Fault) (a : Word) : fetch (s.raise f a) = fetch s := rfl
@[simp] theorem dataBase_loadRegisters (x : Nibble) : dataBase (s.loadRegisters x) = dataBase s := rfl
@[simp] theorem fetch_loadRegisters (x : Nibble) : fetch (s.loadRegisters x) = fetch s := rfl
@[simp] theorem State.getV_tick (r : Nibble) : (s.tick).getV r = s.getV r := rfl
@[simp] theorem dataBase_tick : dataBase (s.tick) = dataBase s := rfl
@[simp] theorem fetch_tick : fetch (s.tick) = fetch s := rfl
@[simp] theorem State.getV_setReleased (k : Nibble) (r : Nibble) : (s.setReleased k).getV r = s.getV r := rfl
@[simp] theorem dataBase_setReleased (k : Nibble) : dataBase (s.setReleased k) = dataBase s := rfl
@[simp] theorem fetch_setReleased (k : Nibble) : fetch (s.setReleased k) = fetch s := rfl
@[simp] theorem State.getV_clearDirty (r : Nibble) : (s.clearDirty).getV r = s.getV r := rfl
@[simp] theorem dataBase_clearDirty : dataBase (s.clearDirty) = dataBase s := rfl
@[simp] theorem fetch_clearDirty : fetch (s.clearDirty) = fetch s := rfl
@[simp] theorem State.getV_placeRom (bytes : List Byte) (r : Nibble) : (s.placeRom bytes).getV r = s.getV r := rfl
@[simp] theorem dataBase_placeRom (bytes : List Byte) : dataBase (s.placeRom bytes) = dataBase s := rfl

end Sys2Proof.Machine
end

