-- ==== Sys2Proof/Laws/Ops.lean ====
section
/-! SUPPORT. What each shared operation can do, said once: register writes, the ways an instruction ends, the bounds
check, the fetch, the step by mode, the blit's single pixel, the host's key press and load. -/

namespace Sys2Proof.Machine

/-! ### Registers -/

@[simp] theorem State.getV_setV_same (s : State) (x : Nibble) (b : Byte) : (s.setV x b).getV x = b := by
  simp [State.getV]

theorem State.getV_setV_of_ne (s : State) {x r : Nibble} (b : Byte) (h : r ≠ x) :
    (s.setV x b).getV r = s.getV r := by
  have : x.toNat ≠ r.toNat := fun e => h (BitVec.eq_of_toNat_eq e.symm)
  simp [State.getV, Vector.getElem_set_ne, this]

theorem State.getV_setV (s : State) (x r : Nibble) (b : Byte) :
    (s.setV x b).getV r = if r = x then b else s.getV r := by
  split
  · subst r; simp
  · exact State.getV_setV_of_ne s b ‹_›

/-- A result and its flag: VF holds the flag, V[x] the result unless x = 0xF, the rest is as it was. -/
theorem State.getV_setResultAndFlag (s : State) (x r : Nibble) (b : Byte) (c : Bool) :
    (s.setResultAndFlag x b c).getV r = if r = 0xF#4 then flagByte c else if r = x then b else s.getV r := by
  simp only [State.setResultAndFlag, State.getV_setV]

/-- LD Vx,[I]'s register write: V0 to Vx from memory, the rest as it was. -/
theorem State.getV_loadRegisters (s : State) (x r : Nibble) :
    (s.loadRegisters x).getV r =
      if r.toNat ≤ x.toNat then Memory.read s.mem (dataBase s + r.toNat) else s.getV r := by
  simp [State.loadRegisters, State.getV]

/-! ### How an instruction ends -/

/-- A skip instruction changes pc alone, by 4 or by 2. -/
theorem State.skipIf_eq_setPc (c : Bool) (s : State) : s.skipIf c = s.setPc (s.pc + if c then 4#16 else 2#16) := by
  cases c <;> rfl

/-- The bounds check: it ends as asked inside memory, and in MemoryOutOfBounds(4096) beyond it. -/
theorem overSpan_cases {len : Nat} {s d t : State} (h : overSpan len s d = .next t) :
    dataBase s + len ≤ 4096 ∧ t = d ∨ 4096 < dataBase s + len ∧ t = s.raise .memoryOutOfBounds 4096#16 := by
  unfold overSpan at h
  split at h <;> cases h
  · exact .inl ⟨‹_›, rfl⟩
  · exact .inr ⟨by omega, rfl⟩

theorem overSpan_inside {len : Nat} {s d : State} (h : dataBase s + len ≤ 4096) : overSpan len s d = .next d := by
  simp [overSpan, h]

theorem overSpan_beyond {len : Nat} {s d : State} (h : 4096 < dataBase s + len) :
    overSpan len s d = .next (s.raise .memoryOutOfBounds 4096#16) := by
  simp [overSpan, Nat.not_le.mpr h]

/-- An address taken from I is inside memory. -/
theorem dataBase_lt (s : State) : dataBase s < 4096 := (s.index.extractLsb' 0 12).isLt

/-- I[11:0] as arithmetic. -/
theorem dataBase_eq (s : State) : dataBase s = s.index.toNat % 4096 := by
  simp [dataBase]

/-! ### The fetch and the step -/

/-- A fetch below 4095 gives the word there. -/
theorem fetch_word {s : State} (h : s.pc.toNat < 4095) : fetch s = .word (wordAt s.mem s.pc.toNat) := by
  simp [fetch, show ¬ s.pc.toNat > 4095 by omega, show s.pc.toNat ≠ 4095 by omega]

/-- What a fetch can give. -/
theorem fetch_cases (s : State) :
    4095 < s.pc.toNat ∧ fetch s = .outOfBounds s.pc ∨
    s.pc.toNat = 4095 ∧ fetch s = .outOfBounds 4096#16 ∨
    s.pc.toNat < 4095 ∧ fetch s = .word (wordAt s.mem s.pc.toNat) := by
  rcases Nat.lt_trichotomy s.pc.toNat 4095 with h | h | h
  · exact .inr (.inr ⟨h, fetch_word h⟩)
  · exact .inr (.inl ⟨h, by simp [fetch, h]⟩)
  · exact .inl ⟨h, by simp [fetch, h]⟩

/-- A step in mode WaitingForKey: nothing, or the resumption. -/
theorem State.stepWaiting_cases (t : Nibble) (s : State) :
    s.lkv = false ∧ s.stepWaiting t = s ∨
    s.lkv = true ∧ s.stepWaiting t =
      (((s.setV t (s.lk.zeroExtend 8)).setLkv false).setMode .running).advance := by
  unfold State.stepWaiting
  cases h : s.lkv <;> simp

/-! ### The framebuffer -/

theorem Grid.cell_toggle (g : Grid) (cy ry : Fin 32) (cx rx : Fin 64) :
    (g.toggle cy cx).cell ry rx = if ry = cy ∧ rx = cx then !g.cell cy cx else g.cell ry rx := by
  unfold Grid.toggle Grid.cell
  by_cases hy : ry = cy
  · subst hy
    by_cases hx : rx = cx
    · subst hx; simp
    · simp [hx, Fin.val_inj, eq_comm (a := cx)]
  · simp [hy, Fin.val_inj, eq_comm (a := cy)]

theorem Grid.cell_clear (cy : Fin 32) (cx : Fin 64) : Grid.clear.cell cy cx = false := by
  simp [Grid.clear, Grid.cell]

/-- Two framebuffers with the same cells are the same. -/
theorem Grid.ext_cell {g h : Grid} (e : ∀ cy cx, g.cell cy cx = h.cell cy cx) : g = h := by
  refine Vector.ext fun i hi => Vector.ext fun j hj => ?_
  exact e ⟨i, hi⟩ ⟨j, hj⟩

/-! ### The end of a run -/

/-- A run has ended in a fault exactly in mode Halted. -/
theorem State.runEnd_eq_fault {s : State} {f : Fault} {a : Word} :
    s.runEnd = some (.fault f a) ↔ s.mode = .halted f a := by
  unfold State.runEnd
  split
  · simp_all
  · simp_all
  · split
    · simp_all
    · cases decodeWord _ <;> simp_all

/-- A run has finished exactly when the word a Running machine fetches is a jump to its own address. -/
theorem State.runEnd_eq_finished {s : State} :
    s.runEnd = some .finished ↔
      s.mode = .running ∧ ∃ w i, fetch s = .word w ∧ decodeWord w = some i ∧ isOwnJump i s = true := by
  unfold State.runEnd
  split
  · simp_all
  · simp_all
  · split
    · simp_all
    · cases h : decodeWord _ <;> simp_all

/-- The end of a run is told by the mode, pc, memory and V0 alone. -/
theorem State.runEnd_congr {s t : State} (hm : t.mode = s.mode) (hp : t.pc = s.pc) (hmem : t.mem = s.mem)
    (hv : t.v = s.v) : t.runEnd = s.runEnd := by
  have hf : fetch t = fetch s := by simp [fetch, hp, hmem]
  have hj : ∀ i, isOwnJump i t = isOwnJump i s := fun i => by cases i <;> simp [isOwnJump, State.getV, hp, hv]
  simp [State.runEnd, hm, hf, hj]

/-! ### Host operations -/

/-- A press: an edge recorded, or nothing for a key already down. -/
theorem State.setPressed_cases (k : Nibble) (s : State) :
    s.key[k.toNat]'k.isLt = true ∧ s.setPressed k = s ∨
    s.key[k.toNat]'k.isLt = false ∧
      s.setPressed k = { s with key := s.key.set k.toNat true k.isLt, lk := k, lkv := true } := by
  unfold State.setPressed
  cases h : s.key[k.toNat]'k.isLt <;> simp

theorem countDown_toNat (b : Byte) : (countDown b).toNat = b.toNat - 1 := by
  unfold countDown
  split
  · subst b; rfl
  · have : b.toNat ≠ 0 := fun h => ‹b ≠ 0› (BitVec.eq_of_toNat_eq h)
    have := b.isLt
    simp [BitVec.toNat_sub]
    omega

end Sys2Proof.Machine
end

