-- ==== Sys2Proof/Laws/PerInstr.lean ====
section
/-! SUPPORT. A family of statements about every instruction as syntax: the word of an instruction has the fixed digits
of its row of 30_encoding.md R66. One lemma per constructor. -/

namespace Sys2Proof.Laws

/-- The word of `i` fits the pattern of its own row. -/
def EncodingFits.Statement (i : Instr) : Prop := i.opcode.pattern.fits (encode i) = true

/-- A word filled in from a pattern, the operands in the free digits, fits the pattern. -/
theorem EncodingFits.filled (p : Pattern) (a b c d : Nibble) :
    p.fits (wordOfNibbles (p.d3.getD a) (p.d2.getD b) (p.d1.getD c) (p.d0.getD d)) = true := by
  have (o : Option Nibble) (n : Nibble) : digitFits o (o.getD n) = true := by cases o <;> simp [digitFits]
  simp [Pattern.fits, this]

theorem EncodingFits.cls : EncodingFits.Statement (.cls) := EncodingFits.filled _ _ _ _ _
theorem EncodingFits.ret : EncodingFits.Statement (.ret) := EncodingFits.filled _ _ _ _ _
theorem EncodingFits.jp (nnn : Addr) : EncodingFits.Statement (.jp nnn) := EncodingFits.filled _ _ _ _ _
theorem EncodingFits.call (nnn : Addr) : EncodingFits.Statement (.call nnn) := EncodingFits.filled _ _ _ _ _
theorem EncodingFits.seImm (x : Nibble) (kk : Byte) : EncodingFits.Statement (.seImm x kk) := EncodingFits.filled _ _ _ _ _
theorem EncodingFits.sneImm (x : Nibble) (kk : Byte) : EncodingFits.Statement (.sneImm x kk) := EncodingFits.filled _ _ _ _ _
theorem EncodingFits.seReg (x y : Nibble) : EncodingFits.Statement (.seReg x y) := EncodingFits.filled _ _ _ _ _
theorem EncodingFits.sneReg (x y : Nibble) : EncodingFits.Statement (.sneReg x y) := EncodingFits.filled _ _ _ _ _
theorem EncodingFits.ldImm (x : Nibble) (kk : Byte) : EncodingFits.Statement (.ldImm x kk) := EncodingFits.filled _ _ _ _ _
theorem EncodingFits.addImm (x : Nibble) (kk : Byte) : EncodingFits.Statement (.addImm x kk) := EncodingFits.filled _ _ _ _ _
theorem EncodingFits.ldReg (x y : Nibble) : EncodingFits.Statement (.ldReg x y) := EncodingFits.filled _ _ _ _ _
theorem EncodingFits.orReg (x y : Nibble) : EncodingFits.Statement (.orReg x y) := EncodingFits.filled _ _ _ _ _
theorem EncodingFits.andReg (x y : Nibble) : EncodingFits.Statement (.andReg x y) := EncodingFits.filled _ _ _ _ _
theorem EncodingFits.xorReg (x y : Nibble) : EncodingFits.Statement (.xorReg x y) := EncodingFits.filled _ _ _ _ _
theorem EncodingFits.addReg (x y : Nibble) : EncodingFits.Statement (.addReg x y) := EncodingFits.filled _ _ _ _ _
theorem EncodingFits.subReg (x y : Nibble) : EncodingFits.Statement (.subReg x y) := EncodingFits.filled _ _ _ _ _
theorem EncodingFits.subnReg (x y : Nibble) : EncodingFits.Statement (.subnReg x y) := EncodingFits.filled _ _ _ _ _
theorem EncodingFits.shr (x y : Nibble) : EncodingFits.Statement (.shr x y) := EncodingFits.filled _ _ _ _ _
theorem EncodingFits.shl (x y : Nibble) : EncodingFits.Statement (.shl x y) := EncodingFits.filled _ _ _ _ _
theorem EncodingFits.ldI (nnn : Addr) : EncodingFits.Statement (.ldI nnn) := EncodingFits.filled _ _ _ _ _
theorem EncodingFits.jpV0 (nnn : Addr) : EncodingFits.Statement (.jpV0 nnn) := EncodingFits.filled _ _ _ _ _
theorem EncodingFits.rnd (x : Nibble) (kk : Byte) : EncodingFits.Statement (.rnd x kk) := EncodingFits.filled _ _ _ _ _
theorem EncodingFits.drw (x y n : Nibble) : EncodingFits.Statement (.drw x y n) := EncodingFits.filled _ _ _ _ _
theorem EncodingFits.skp (x : Nibble) : EncodingFits.Statement (.skp x) := EncodingFits.filled _ _ _ _ _
theorem EncodingFits.sknp (x : Nibble) : EncodingFits.Statement (.sknp x) := EncodingFits.filled _ _ _ _ _
theorem EncodingFits.ldVxDt (x : Nibble) : EncodingFits.Statement (.ldVxDt x) := EncodingFits.filled _ _ _ _ _
theorem EncodingFits.ldDtVx (x : Nibble) : EncodingFits.Statement (.ldDtVx x) := EncodingFits.filled _ _ _ _ _
theorem EncodingFits.ldStVx (x : Nibble) : EncodingFits.Statement (.ldStVx x) := EncodingFits.filled _ _ _ _ _
theorem EncodingFits.ldVxK (x : Nibble) : EncodingFits.Statement (.ldVxK x) := EncodingFits.filled _ _ _ _ _
theorem EncodingFits.addI (x : Nibble) : EncodingFits.Statement (.addI x) := EncodingFits.filled _ _ _ _ _
theorem EncodingFits.ldF (x : Nibble) : EncodingFits.Statement (.ldF x) := EncodingFits.filled _ _ _ _ _
theorem EncodingFits.ldB (x : Nibble) : EncodingFits.Statement (.ldB x) := EncodingFits.filled _ _ _ _ _
theorem EncodingFits.ldMemVx (x : Nibble) : EncodingFits.Statement (.ldMemVx x) := EncodingFits.filled _ _ _ _ _
theorem EncodingFits.ldVxMem (x : Nibble) : EncodingFits.Statement (.ldVxMem x) := EncodingFits.filled _ _ _ _ _

end Sys2Proof.Laws
end

