-- ==== Sys2Proof/Tests/Slice0.lean ====
section
/-! SUPPORT. Tests. Expected values are those of 95_test_vectors.md and of the rules' own examples, and each word's
fields are those of 30_encoding.md R61; none is the model's answer pasted back. Also the witnesses that the
hypotheses of the statements can be met. -/

namespace Sys2Proof.Tests

open Sys2Proof.Machine

/-! ### Helpers -/

/-- The state after a step that answers one. -/
def after (s : State) : State :=
  match step s with
  | .next t => t
  | _ => s

/-- The reset state with the word `w` at 0x200. -/
def start (w : Nat) : State := State.reset.withFetchWord 16 w

/-- The reset state with `w` at 0x200 and two registers set. -/
def startV (w : Nat) (x : Nibble) (a : Byte) (y : Nibble) (b : Byte) : State :=
  ((start w).setV x a).setV y b

/-- The reset state with `w` at 0x200, a register and I set. -/
def startI (w : Nat) (x : Nibble) (a : Byte) (i : Word) : State := ((start w).setV x a).setIndex i

/-! ### WellFormed: each check of R67 refuses a word of its row (95_test_vectors.md 2.1) -/

theorem test_illegal_major0 : wellFormedWord 0x0123 = false ∧ wellFormedWord 0x00E0 = true := by decide
theorem test_illegal_major5 : wellFormedWord 0x5AB1 = false ∧ wellFormedWord 0x5AB0 = true := by decide
theorem test_illegal_major8 : wellFormedWord 0x8ABD = false ∧ wellFormedWord 0x8ABE = true := by decide
theorem test_illegal_major9 : wellFormedWord 0x9AB8 = false ∧ wellFormedWord 0x9AB0 = true := by decide
theorem test_illegal_majorE : wellFormedWord 0xEAA0 = false ∧ wellFormedWord 0xEAA1 = true := by decide
theorem test_illegal_majorF : wellFormedWord 0xFA75 = false ∧ wellFormedWord 0xFA65 = true := by decide

/-! ### Decode: every constructor, a word written out from its format and pattern (30_encoding.md R61, R66) -/

theorem test_decode_control :
    decodeWord 0b0000000011101110 = some .ret ∧
    decodeWord 0b0001101010111100 = some (.jp 0xABC) ∧
    decodeWord 0b0010111111111111 = some (.call 0xFFF) ∧
    decodeWord 0b0011101001111111 = some (.seImm 0xA 0x7F) ∧
    decodeWord 0b0100001100101010 = some (.sneImm 0x3 0x2A) ∧
    decodeWord 0b0101101010110000 = some (.seReg 0xA 0xB) ∧
    decodeWord 0b1001000100100000 = some (.sneReg 0x1 0x2) ∧
    decodeWord 0b1011001100000000 = some (.jpV0 0x300) := by decide

theorem test_decode_alu :
    decodeWord 0b0110000000000101 = some (.ldImm 0x0 0x05) ∧
    decodeWord 0b0111000100000101 = some (.addImm 0x1 0x05) ∧
    decodeWord 0b1000000100100000 = some (.ldReg 0x1 0x2) ∧
    decodeWord 0b1000000100100001 = some (.orReg 0x1 0x2) ∧
    decodeWord 0b1000000100100010 = some (.andReg 0x1 0x2) ∧
    decodeWord 0b1000000100100011 = some (.xorReg 0x1 0x2) ∧
    decodeWord 0b1000000000010100 = some (.addReg 0x0 0x1) ∧
    decodeWord 0b1000000100100101 = some (.subReg 0x1 0x2) ∧
    decodeWord 0b1000000100100111 = some (.subnReg 0x1 0x2) ∧
    decodeWord 0b1000101011110110 = some (.shr 0xA 0xF) ∧
    decodeWord 0b1000010000001110 = some (.shl 0x4 0x0) ∧
    decodeWord 0b1100001100001111 = some (.rnd 0x3 0x0F) := by decide

theorem test_decode_index_display :
    decodeWord 0b1010001100000000 = some (.ldI 0x300) ∧
    decodeWord 0b1111001000011110 = some (.addI 0x2) ∧
    decodeWord 0b1111000000101001 = some (.ldF 0x0) ∧
    decodeWord 0b1111000000110011 = some (.ldB 0x0) ∧
    decodeWord 0b1111001001010101 = some (.ldMemVx 0x2) ∧
    decodeWord 0b1111101001100101 = some (.ldVxMem 0xA) ∧
    decodeWord 0b0000000011100000 = some .cls ∧
    decodeWord 0b1101101010110101 = some (.drw 0xA 0xB 0x5) := by decide

theorem test_decode_keypad_timers :
    decodeWord 0b1110101010011110 = some (.skp 0xA) ∧
    decodeWord 0b1110010110100001 = some (.sknp 0x5) ∧
    decodeWord 0b1111001000000111 = some (.ldVxDt 0x2) ∧
    decodeWord 0b1111001000010101 = some (.ldDtVx 0x2) ∧
    decodeWord 0b1111001000011000 = some (.ldStVx 0x2) ∧
    decodeWord 0b1111001100001010 = some (.ldVxK 0x3) := by decide

theorem test_decode_rejects :
    decodeBytes [0x01, 0x23] = .unrecognizedOpcode 0x0123 ∧ decodeBytes [0x60] = .tooShort ∧
    decodeBytes [0x60, 0x05, 0x61] = .instr (.ldImm 0 5) [0x61] ∧ decodeWord 0x00FE = none ∧
    decodeWord 0x8AB8 = none ∧ decodeWord 0xEA9F = none ∧ decodeWord 0xFA16 = none := by decide

/-- R66: the mask and match columns, as the table prints them. -/
theorem test_mask_and_match :
    (opcodes.map fun op => (op.pattern.mask, op.pattern.value)) =
      [(0xFFFF, 0x00E0), (0xFFFF, 0x00EE), (0xF000, 0x1000), (0xF000, 0x2000), (0xF000, 0x3000), (0xF000, 0x4000),
       (0xF00F, 0x5000), (0xF00F, 0x9000), (0xF000, 0x6000), (0xF000, 0x7000), (0xF00F, 0x8000), (0xF00F, 0x8001),
       (0xF00F, 0x8002), (0xF00F, 0x8003), (0xF00F, 0x8004), (0xF00F, 0x8005), (0xF00F, 0x8007), (0xF00F, 0x8006),
       (0xF00F, 0x800E), (0xF000, 0xA000), (0xF000, 0xB000), (0xF000, 0xC000), (0xF000, 0xD000), (0xF0FF, 0xE09E),
       (0xF0FF, 0xE0A1), (0xF0FF, 0xF007), (0xF0FF, 0xF015), (0xF0FF, 0xF018), (0xF0FF, 0xF00A), (0xF0FF, 0xF01E),
       (0xF0FF, 0xF029), (0xF0FF, 0xF033), (0xF0FF, 0xF055), (0xF0FF, 0xF065)] := by decide

theorem test_encode_words : encode (.shr 0xA 0xF) = 0x8AF6 ∧ encode (.drw 0xA 0xB 5) = 0xDAB5 ∧
    encode (.call 0xFFF) = 0x2FFF ∧ encode (.ldVxMem 0xA) = 0xFA65 ∧ decodeTableWord 16 0x8014 = some (.addReg 0 1) ∧
    decodeTableWord 16 0x5AB1 = none := by decide

/-! ### Control transfer (95_test_vectors.md 2.2) -/

theorem test_jp : (after (start 0x1FFF)).pc = 0xFFF := by decide
theorem test_jp_past_end : (after (after (start 0x1FFF))).mode = .halted .memoryOutOfBounds 4096 := by decide
theorem test_call : (after (start 0x220A)).stk[0] = 0x202 ∧ (after (start 0x220A)).sp = 1 ∧
    (after (start 0x220A)).pc = 0x20A := by decide
theorem test_call_overflow :
    (after { start 0x2400 with sp := 16 }).mode = .halted .stackOverflow 0 ∧
    (after { start 0x2400 with sp := 16 }).pc = 0x200 := by decide
theorem test_ret : (after ((start 0x00EE).push 0x206 (by decide))).pc = 0x206 ∧
    (after ((start 0x00EE).push 0x206 (by decide))).sp = 0 ∧
    (after ((start 0x00EE).push 0x206 (by decide))).stk[0] = 0x206 := by decide
theorem test_ret_underflow : (after (start 0x00EE)).mode = .halted .stackUnderflow 0 := by decide
theorem test_jp_v0 : (after (startV 0xBFFF 0 0xFF 1 0)).pc = 0x10FE := by decide
theorem test_jp_v0_past_end :
    (after (after (startV 0xBFFF 0 0xFF 1 0))).mode = .halted .memoryOutOfBounds 0x10FE := by decide
theorem test_se_imm : (after (startV 0x332A 3 0x2A 0 0)).pc = 0x204 ∧
    (after (startV 0x332A 3 0x2B 0 0)).pc = 0x202 := by decide
theorem test_sne_imm : (after (startV 0x432A 3 0x2A 0 0)).pc = 0x202 ∧
    (after (startV 0x432A 3 0x2B 0 0)).pc = 0x204 := by decide
theorem test_se_reg : (after (startV 0x5120 1 7 2 7)).pc = 0x204 ∧
    (after (startV 0x5120 1 7 2 8)).pc = 0x202 := by decide
theorem test_sne_reg : (after (startV 0x9120 1 7 2 8)).pc = 0x204 ∧
    (after (startV 0x9120 1 7 2 7)).pc = 0x202 := by decide

/-! ### Arithmetic and logic (95_test_vectors.md 2.3) -/

theorem test_ld_imm : (after (start 0x6F07)).getV 0xF = 7 ∧ (after (start 0x6F07)).pc = 0x202 := by decide
theorem test_add_imm_wraps : (after (startV 0x7105 1 0xFE 0xF 1)).getV 1 = 0x03 ∧
    (after (startV 0x7105 1 0xFE 0xF 1)).getV 0xF = 1 := by decide
theorem test_ld_reg : (after (startV 0x8120 2 0x5A 0 0)).getV 1 = 0x5A := by decide
theorem test_or : (after ((startV 0x8121 1 0x0F 2 0xF0).setV 0xF 1)).getV 1 = 0xFF ∧
    (after ((startV 0x8121 1 0x0F 2 0xF0).setV 0xF 1)).getV 0xF = 1 := by decide
theorem test_and : (after (startV 0x8122 1 0x3C 2 0x0F)).getV 1 = 0x0C := by decide
theorem test_xor : (after (startV 0x8123 1 0xFF 2 0x0F)).getV 1 = 0xF0 := by decide
theorem test_add_carry : (after (startV 0x8014 0 0xFF 1 0x01)).getV 0 = 0 ∧
    (after (startV 0x8014 0 0xFF 1 0x01)).getV 0xF = 1 := by decide
theorem test_add_into_vf : (after (startV 0x8F14 0xF 0xF0 1 0x20)).getV 0xF = 1 ∧
    (after (startV 0x81F4 0xF 0xF0 1 0x20)).getV 1 = 0x10 := by decide
theorem test_sub_borrow : (after (startV 0x8125 1 3 2 5)).getV 1 = 0xFE ∧
    (after (startV 0x8125 1 3 2 5)).getV 0xF = 0 ∧ (after (startV 0x8125 1 5 2 5)).getV 0xF = 1 := by decide
theorem test_sub_vf_operand : (after (startV 0x81F5 1 5 0xF 3)).getV 1 = 2 ∧
    (after (startV 0x81F5 1 5 0xF 3)).getV 0xF = 1 ∧ (after (startV 0x8F15 1 5 0xF 3)).getV 0xF = 0 := by decide
theorem test_subn : (after (startV 0x8127 1 5 2 3)).getV 1 = 0xFE ∧
    (after (startV 0x8127 1 5 2 3)).getV 0xF = 0 ∧ (after (startV 0x8127 1 3 2 5)).getV 1 = 2 := by decide
theorem test_shr_ignores_y : (after (startV 0x8476 4 0x03 7 0xFF)).getV 4 = 1 ∧
    (after (startV 0x8476 4 0x03 7 0xFF)).getV 0xF = 1 := by decide
theorem test_shr_vf : (after (startV 0x8F06 0xF 0x02 0 0)).getV 0xF = 0 := by decide
theorem test_shl : (after (startV 0x840E 4 0xC1 0 0)).getV 4 = 0x82 ∧
    (after (startV 0x840E 4 0xC1 0 0)).getV 0xF = 1 := by decide
/-- kk = 0 gives 0 whatever the draw is, and the next draw is another. -/
theorem test_rnd : (after (start 0xC300)).draws = 1 ∧ (after (start 0xC300)).pc = 0x202 ∧
    (after (startV 0xC300 3 9 0 0)).getV 3 = Config.rndByte 0 &&& 0 := by
  refine ⟨by decide, by decide, rfl⟩

/-! ### Index and memory (95_test_vectors.md 2.4) -/

theorem test_ld_i : (after (start 0xAFFF)).index = 0xFFF := by decide
theorem test_add_i_wraps : (after (startI 0xF21E 2 0xFF 0xF80)).index = 0x07F ∧
    (after (startI 0xF21E 2 0x01 0xFFF)).getV 0xF = 0 := by decide
theorem test_ld_f : (after (start 0xF029 |>.setV 0 7)).index = 0x023 ∧
    (after (start 0xF029 |>.setV 0 0xFF)).index = 0x4FB := by decide
theorem test_ld_b : Memory.readBytes (after (startI 0xF033 0 254 0x300)).mem 0x300 3 = [2, 5, 4] := by decide
theorem test_ld_b_edge : Memory.readBytes (after (startI 0xF033 0 123 0xFFD)).mem 0xFFD 3 = [1, 2, 3] ∧
    (after (startI 0xF033 0 123 0xFFE)).mode = .halted .memoryOutOfBounds 4096 ∧
    Memory.readBytes (after (startI 0xF033 0 123 0xFFE)).mem 0xFFE 2 = [0, 0] := by decide
theorem test_store_registers :
    Memory.readBytes (after ((startI 0xF155 0 0x12 0x202).setV 1 0x34)).mem 0x202 3 = [0x12, 0x34, 0] ∧
    (after (startI 0xF155 0 0x11 0xFFF)).mode = .halted .memoryOutOfBounds 4096 := by decide
/-- The store of 0x1200 at 0x202 is what the next fetch sees: JP 0x200 (R53). -/
theorem test_self_modifying : (after (after (startI 0xF155 0 0x12 0x202))).pc = 0x200 := by decide
theorem test_load_registers :
    (after (startI 0xF465 5 9 0x023)).v.toList.take 6 = [0xF0, 0x10, 0x20, 0x40, 0x40, 9] := by decide
theorem test_load_registers_edge : (after (startI 0xFF65 5 9 0xFF1)).mode = .halted .memoryOutOfBounds 4096 ∧
    (after (startI 0xFF65 5 9 0xFF1)).getV 5 = 9 := by decide

/-! ### Display (95_test_vectors.md 2.5) -/

theorem test_cls : (after { start 0x00E0 with fb := Grid.clear.toggle 3 5 }).fb.cell 3 5 = false ∧
    (after (start 0x00E0)).dirty = true := by decide

/-- The wrapped glyph 7 of R145's example. -/
def wrapped : State := (startV 0xD125 1 62 2 30).setIndex 0x023

theorem test_drw_wraps :
    ([(30, 62), (30, 63), (30, 0), (30, 1), (31, 1), (0, 0), (1, 63), (2, 63)] : List (Fin 32 × Fin 64)).all
      (fun p => (after wrapped).fb.cell p.1 p.2) = true ∧ (after wrapped).fb.cell 31 62 = false ∧
    (after wrapped).getV 0xF = 0 ∧ (after wrapped).dirty = true := by decide
theorem test_drw_collides : (after { wrapped with fb := Grid.clear.toggle 2 63 }).getV 0xF = 1 ∧
    (after { wrapped with fb := Grid.clear.toggle 2 63 }).fb.cell 2 63 = false := by decide
theorem test_drw_empty : (after (startI 0xD120 0xF 1 0xFFF)).getV 0xF = 0 ∧
    (after (startI 0xD120 0xF 1 0xFFF)).dirty = false ∧
    (after (startI 0xD122 0xF 1 0xFFF)).mode = .halted .memoryOutOfBounds 4096 := by decide

/-! ### Keypad and timers (95_test_vectors.md 2.6) -/

theorem test_skp : (after ((startV 0xE59E 5 0x1A 0 0).setPressed 0xA)).pc = 0x204 ∧
    (after (startV 0xE59E 5 0x1A 0 0)).pc = 0x202 := by decide
theorem test_sknp : (after ((startV 0xE5A1 5 0x0A 0 0).setPressed 0xA)).pc = 0x202 ∧
    (after (startV 0xE5A1 5 0x0A 0 0)).pc = 0x204 := by decide
/-- A press from before the wait is dropped; a later one ends it. -/
theorem test_wait_for_key :
    (after ((start 0xF30A).setPressed 9)).mode = .waitingForKey 3 ∧ (after ((start 0xF30A).setPressed 9)).lkv = false ∧
    (after ((start 0xF30A).setPressed 9)).pc = 0x200 := by decide
theorem test_resume :
    (after (((after (start 0xF30A)).setPressed 0xB).setReleased 0xB)).getV 3 = 0x0B ∧
    (after (((after (start 0xF30A)).setPressed 0xB).setReleased 0xB)).mode = .running ∧
    (after (((after (start 0xF30A)).setPressed 0xB).setReleased 0xB)).pc = 0x202 := by decide
theorem test_ld_vx_dt : (after ((start 0xF207).setDt 0x3C)).getV 2 = 0x3C := by decide
theorem test_ld_dt_vx : (after (startV 0xF215 2 10 0 0)).dt = 10 := by decide
theorem test_ld_st_vx : (after (startV 0xF218 2 2 0 0)).st = 2 := by decide
theorem test_tick : (((State.reset.setDt 1).setSt 255).tick).dt = 0 ∧ (((State.reset.setDt 1).setSt 255).tick).st = 254 ∧
    State.reset.tick.dt = 0 := by decide

/-! ### Faults, load and reset (95_test_vectors.md 2.7) -/

theorem test_step_without_load : (after State.reset).mode = .halted .unrecognizedOpcode 0 ∧
    (after State.reset).pc = 0x200 ∧ (after (after State.reset)).mode = .halted .unrecognizedOpcode 0 := by decide
theorem test_fetch_at_last_byte : (after ((start 0x6005).setPc 0xFFF)).mode = .halted .memoryOutOfBounds 4096 := by decide
theorem test_load_twice :
    Memory.readBytes (((State.reset.load [0x60, 0x05]).1.load [0x61]).1).mem 0x200 2 = [0x61, 0x05] := by decide
theorem test_rom_too_large (s : State) :
    s.load (List.replicate 3585 0x12) = (s, .romTooLarge 3585) := by
  simp only [State.load, List.length_replicate]
  rfl
/-- R97: JP 0x200 at 0x200 ends the run and JP 0x202 does not; so does JP V0 with 0x1F0 + 0x10. -/
theorem test_run_end : (start 0x1200).runEnd = some .finished ∧ (start 0x1202).runEnd = none ∧
    (startV 0xB1F0 0 0x10 1 0).runEnd = some .finished ∧ (after State.reset).runEnd = some (.fault .unrecognizedOpcode 0) ∧
    (after (start 0xF30A)).runEnd = none := by decide
theorem test_reset_leaves_halted : ((after State.reset).hostReset).mode = .running := by decide

/-! ### The statements' hypotheses can be met -/

/-- `EncodeOfDecodeIsTheWord`. -/
theorem test_meets_decode : decodeWord 0x8014 = some (.addReg 0 1) := by decide
/-- `StepRunsTheDecodedInstruction`, at the highest pc that can be fetched. -/
theorem test_meets_step_runs :
    let s := (State.reset.setPc 4094).withFetchWord 16 0x6005
    s.mode = .running ∧ s.pc.toNat = 4094 ∧
    decodeWord (wordOfBytes (Memory.read s.mem s.pc.toNat) (Memory.read s.mem (s.pc.toNat + 1))) = some (.ldImm 0 5) := by
  decide
/-- `FetchReadsTwoBytesOrHalts`: its three clauses. -/
theorem test_meets_fetch : (State.reset.setPc 4096).mode = .running ∧ 4095 < (State.reset.setPc 4096).pc.toNat ∧
    (State.reset.setPc 4095).mode = .running ∧ (State.reset.setPc 4095).pc.toNat = 4095 ∧
    (State.reset.setPc 4094).pc.toNat < 4095 := by decide
/-- `StepFaultsExactlyWhenTheCauseStands`, `ProgramCounterLaw`. -/
theorem test_meets_running : State.reset.mode = .running := rfl
/-- `FaultsArePrecise`, `EveryInstructionWritesOnlyWhatItNames`. -/
theorem test_meets_fault : exec .ret State.reset = .next (State.reset.raise .stackUnderflow 0) ∧
    step (start 0x00EE) = .next ((start 0x00EE).raise .stackUnderflow 0) := ⟨rfl, rfl⟩
/-- `ModeTransitionsAreThoseListed`, `StepKeepsTheInvariants`: a step that answers a next state. -/
theorem test_meets_step : step State.reset = .next (State.reset.raise .unrecognizedOpcode 0) := rfl
/-- `WaitingStepResumesOnAPress`: its three clauses. -/
theorem test_meets_waiting :
    let s := after (start 0xFF0A)
    s.mode = .waitingForKey 0xF ∧ s.lkv = false ∧ (s.setPressed 0xF).mode = .waitingForKey 0xF ∧
    (s.setPressed 0xF).lkv = true ∧ s.key[(0xF : Nibble).toNat] = false := by decide
/-- `CallPushesTheReturnAddress`, `ReturnPopsTheStack`: both clauses of each. -/
theorem test_meets_stack : State.reset.sp.val < 16 ∧ State.reset.sp.val = 0 ∧
    ({ State.reset with sp := 16 }).sp.val = 16 ∧ 0 < ({ State.reset with sp := 16 }).sp.val := by decide
/-- `StepKeepsThePcInRange`. -/
theorem test_meets_pc_range : (∀ j : Fin 16, (start 0x1200).stk[j].toNat ≤ 4096) ∧ (start 0x1200).mode = .running ∧
    (start 0x1200).pc.toNat ≤ 4094 ∧ step (start 0x1200) = .next ((start 0x1200).setPc 0x200) :=
  ⟨by decide, by decide, by decide, rfl⟩
/-- `ReturnUndoesTheCall`. -/
theorem test_meets_call_return :
    exec (.call 0x20A) State.reset = .next ((State.reset.push 0x202 (by decide)).setPc 0x20A) := rfl
/-- The clauses of `AddRegistersCarries`, `SubtractSetsNoBorrow`, `ShiftRightByOne` and their likes for x ≠ 0xF; of
`DrawingTwiceRestoresTheScreen`. -/
theorem test_meets_not_vf : (0xE : Nibble) ≠ 0xF ∧ dataBase State.reset + (0xF : Nibble).toNat ≤ 4096 := by decide
/-- `StoreDecimalDigits`, `StoreRegisters`, `LoadRegisters`, `DrawSprite`, `DirtyFollowsTheScreen`: inside and beyond,
where the clauses meet. -/
theorem test_meets_spans :
    dataBase (State.reset.setIndex 0xFFD) + 2 ≤ 4095 ∧ 4095 < dataBase (State.reset.setIndex 0xFFE) + 2 ∧
    dataBase (State.reset.setIndex 0xFF0) + (0xF : Nibble).toNat ≤ 4095 ∧
    4095 < dataBase (State.reset.setIndex 0xFF1) + (0xF : Nibble).toNat ∧
    dataBase (State.reset.setIndex 0xFF1) + (0xF : Nibble).toNat ≤ 4096 ∧
    4096 < dataBase (State.reset.setIndex 0xFF2) + (0xF : Nibble).toNat ∧ Memory.wf State.reset.mem := by decide
/-- `DirtyFollowsTheScreen`: an instruction run with dirty set. -/
theorem test_meets_dirty : exec (.jp 0x200) (State.reset.setDirty true) = .next ((State.reset.setDirty true).setPc 0x200) ∧
    (State.reset.setDirty true).dirty = true := ⟨rfl, rfl⟩
/-- `SkipsOnAKey`, for a Vx above 15. -/
theorem test_meets_key : (0xA : Nibble).toNat = ((State.reset.setV 5 0x1A).getV 5).toNat % 16 := by decide
/-- `WaitForKeyParks`, `KeyOperationsDetectEdges`: a key that is down and one that is up. -/
theorem test_meets_key_down : (State.reset.setPressed 0).key[(0 : Nibble).toNat] = true ∧
    (State.reset.setPressed 0).key[(0xF : Nibble).toNat] = false := by decide
/-- `DelayTimerInstructions`: a timer that rises, by an instruction and by the operation step; `TickCountsDown`. -/
theorem test_meets_delay : exec (.ldDtVx 1) (State.reset.setV 1 9) = .next (((State.reset.setV 1 9).setDt 9).advance) ∧
    State.reset.dt.toNat < ((State.reset.setV 1 9).setDt 9).advance.dt.toNat ∧
    step (startV 0xF115 1 9 0 0) = .next ((startV 0xF115 1 9 0 0).setDt 9).advance ∧
    HostOp.step.apply ⟨startV 0xF115 1 9 0 0, false⟩ =
      .next (⟨((startV 0xF115 1 9 0 0).setDt 9).advance, true⟩, .step .done) ∧
    (startV 0xF115 1 9 0 0).dt.toNat < ((startV 0xF115 1 9 0 0).setDt 9).advance.dt.toNat :=
  ⟨rfl, by decide, rfl, rfl, by decide⟩
/-- `UnreadStateDoesNotLeak`: no press recorded, and an index that differs above bit 11 only. -/
theorem test_meets_unread : State.reset.lkv = false ∧
    (0xF000 : Word).toNat % 4096 = State.reset.index.toNat % 4096 := by decide
/-- `LoadPlacesTheRom`: its three clauses, the first and the second where they meet, at 3584 and 3585 bytes, and its
premises on memory and on a byte of the ROM. -/
theorem test_meets_load : Session.start.stepped = false ∧ (List.replicate 3584 (0x12 : Byte)).length ≤ 3584 ∧
    3583 < (List.replicate 3584 (0x12 : Byte)).length ∧ Memory.wf Session.start.state.mem ∧
    3584 < (List.replicate 3585 (0x12 : Byte)).length ∧ (Session.mk State.reset true).stepped = true := by
  simp only [List.length_replicate]
  decide
/-- `HaltedIsFinal`, `ResetFromAnyState`. -/
theorem test_meets_halted : (Session.mk (after State.reset) true).state.mode = .halted .unrecognizedOpcode 0 ∧
    HostOp.tick.apply (Session.mk (after State.reset) true) = .next (⟨(after State.reset).tick, true⟩, .none) :=
  ⟨by decide, rfl⟩
/-- `StepKeepsTheInvariants`, `HostOperationsKeepTheInvariants`: a state and a session that meet them. -/
theorem test_meets_inv : (start 0x1200).Inv := by
  refine ⟨by decide, by decide, by decide, by decide, fun t h => ?_, fun f a h => ?_⟩ <;> cases h
theorem test_meets_session_inv : (Session.mk (start 0x1200) false).Inv := ⟨test_meets_inv, fun _ => rfl⟩
/-- `ReachableStatesMeetTheInvariants`. -/
theorem test_meets_reachable : Reachable (Session.mk (State.reset.raise .unrecognizedOpcode 0) true) :=
  .op .step _ _ (.step (.fault .unrecognizedOpcode 0)) .start rfl
/-- `MemoriesThatReadAlikeAreEqual`. -/
theorem test_meets_memories : Memory.wf [(0x200, 0x60)] ∧ Memory.wf (Memory.write [] 0x200 0x60) ∧
    Memory.write [] 0x200 0x60 = [(0x200, 0x60)] := by decide
/-- `EndOfARunIsFinal`: a finished, a halted and a waiting machine, and an operation on a finished one. -/
theorem test_meets_run_end : (start 0x1200).runEnd = some .finished ∧ (start 0x1200).mode = .running ∧
    (after State.reset).runEnd = some (.fault .unrecognizedOpcode 0) ∧ (after (start 0xF30A)).mode = .waitingForKey 3 ∧
    HostOp.tick.apply ⟨start 0x1200, true⟩ = .next (⟨(start 0x1200).tick, true⟩, .none) :=
  ⟨by decide, by decide, by decide, by decide, rfl⟩
/-- `EveryInstructionWritesOnlyWhatItNames`: parts that are in the frame beside the ones written. -/
theorem test_meets_frame : ¬ mayWrite (.ldB 0) (State.reset.setIndex 0x300) (.byte 0x303) ∧
    mayWrite (.ldB 0) (State.reset.setIndex 0x300) (.byte 0x302) ∧ ¬ mayWrite (.call 0x300) State.reset (.stk 1) ∧
    mayWrite (.call 0x300) State.reset (.stk 0) :=
  ⟨fun h => absurd h.2.1 (by decide), ⟨by decide, by decide, .inl ⟨0, rfl⟩⟩, fun h => absurd h.1 (by decide),
    ⟨by decide, 0x300, rfl⟩⟩
/-- `StoredBytesAreFetched`. -/
theorem test_meets_stored :
    let s := State.reset.setIndex 0x202
    Memory.wf s.mem ∧ s.pc.toNat + 3 ≤ 4095 ∧ dataBase s = s.pc.toNat + 2 ∧ 1 ≤ (1 : Nibble).toNat ∧
    dataBase s + (1 : Nibble).toNat ≤ 4095 := by decide

end Sys2Proof.Tests
end

section
/-! The algebra of frames: what each update of the state leaves alone (10_state.md R10, R24), as rules that extend a
frame by one more update. An instruction's frame is the chain of its updates. -/

namespace Sys2Proof.Machine

variable {c : Part → Prop} {s t : State}

theorem unchangedBut.refl (c : Part → Prop) (s : State) : unchangedBut c s s := fun p _ => by cases p <;> rfl

/-! ### One rule per update -/

/-- The register file takes new values. -/
theorem unchangedBut.setRegisters (h : unchangedBut c s t) {v : Vector Byte 16}
    (hv : ∀ r : Nibble, ¬ c (.reg r) → v[r.toNat]'r.isLt = t.getV r) : unchangedBut c s { t with v := v } := by
  intro p hp
  cases p with
  | reg r => exact (hv r hp).trans (h (.reg r) hp)
  | _ => exact h _ hp

theorem unchangedBut.setV (h : unchangedBut c s t) {x : Nibble} {b : Byte} (hx : c (.reg x)) :
    unchangedBut c s (t.setV x b) :=
  h.setRegisters fun _ hr => State.getV_setV_of_ne t b fun e => hr (e ▸ hx)

theorem unchangedBut.setIndex (h : unchangedBut c s t) {w : Word} (hi : c .index) :
    unchangedBut c s (t.setIndex w) := by
  intro p hp
  cases p with
  | index => exact absurd hi hp
  | _ => exact h _ hp

theorem unchangedBut.setMem (h : unchangedBut c s t) {m : Memory}
    (hm : ∀ a, ¬ c (.byte a) → Memory.read m a = Memory.read t.mem a) : unchangedBut c s (t.setMem m) := by
  intro p hp
  cases p with
  | byte a => exact (hm a hp).trans (h (.byte a) hp)
  | _ => exact h _ hp

theorem unchangedBut.setDt (h : unchangedBut c s t) {b : Byte} (hd : c .dt) : unchangedBut c s (t.setDt b) := by
  intro p hp
  cases p with
  | dt => exact absurd hd hp
  | _ => exact h _ hp

theorem unchangedBut.setSt (h : unchangedBut c s t) {b : Byte} (hd : c .st) : unchangedBut c s (t.setSt b) := by
  intro p hp
  cases p with
  | st => exact absurd hd hp
  | _ => exact h _ hp

theorem unchangedBut.setFb (h : unchangedBut c s t) {g : Grid}
    (hg : ∀ cy cx, ¬ c (.cell cy cx) → g.cell cy cx = t.fb.cell cy cx) : unchangedBut c s (t.setFb g) := by
  intro p hp
  cases p with
  | cell cy cx => exact (hg cy cx hp).trans (h (.cell cy cx) hp)
  | _ => exact h _ hp

theorem unchangedBut.setDirty (h : unchangedBut c s t) {b : Bool} (hd : c .dirty) :
    unchangedBut c s (t.setDirty b) := by
  intro p hp
  cases p with
  | dirty => exact absurd hd hp
  | _ => exact h _ hp

theorem unchangedBut.setLkv (h : unchangedBut c s t) {b : Bool} (hl : c .lkv) : unchangedBut c s (t.setLkv b) := by
  intro p hp
  cases p with
  | lkv => exact absurd hl hp
  | _ => exact h _ hp

theorem unchangedBut.setLk (h : unchangedBut c s t) {k : Nibble} (hl : c .lk) :
    unchangedBut c s { t with lk := k } := by
  intro p hp
  cases p with
  | lk => exact absurd hl hp
  | _ => exact h _ hp

/-- Latch `k` takes a new value. -/
theorem unchangedBut.setKey (h : unchangedBut c s t) {k : Nibble} {b : Bool} (hk : c (.key k)) :
    unchangedBut c s { t with key := t.key.set k.toNat b k.isLt } := by
  intro p hp
  cases p with
  | key j =>
    have hj : k.toNat ≠ j.toNat := fun e => hp (BitVec.eq_of_toNat_eq e ▸ hk)
    exact (Vector.getElem_set_ne k.isLt j.isLt hj).trans (h (.key j) hp)
  | _ => exact h _ hp

theorem unchangedBut.setMode (h : unchangedBut c s t) {m : Mode} (hm : c .mode) : unchangedBut c s (t.setMode m) := by
  intro p hp
  cases p with
  | mode => exact absurd hm hp
  | _ => exact h _ hp

theorem unchangedBut.raise (h : unchangedBut c s t) {f : Fault} {a : Word} (hm : c .mode) :
    unchangedBut c s (t.raise f a) := h.setMode hm

theorem unchangedBut.countDraw (h : unchangedBut c s t) (hd : c .draws) : unchangedBut c s t.countDraw := by
  intro p hp
  cases p with
  | draws => exact absurd hd hp
  | _ => exact h _ hp

theorem unchangedBut.setPc (h : unchangedBut c s t) {w : Word} (hpc : c .pc) : unchangedBut c s (t.setPc w) := by
  intro p hp
  cases p with
  | pc => exact absurd hpc hp
  | _ => exact h _ hp

theorem unchangedBut.advance (h : unchangedBut c s t) (hpc : c .pc) : unchangedBut c s t.advance := h.setPc hpc

theorem unchangedBut.skipIf (h : unchangedBut c s t) {b : Bool} (hpc : c .pc) : unchangedBut c s (t.skipIf b) := by
  rw [State.skipIf_eq_setPc]
  exact h.setPc hpc

/-- A push writes SP and the entry STK[SP] alone (40_step_and_control.md R87). -/
theorem unchangedBut.push (h : unchangedBut c s t) {w : Word} {hs : t.sp.val < 16} (hsp : c .sp)
    (hj : c (.stk ⟨t.sp.val, hs⟩)) : unchangedBut c s (t.push w hs) := by
  intro p hp
  cases p with
  | sp => exact absurd hsp hp
  | stk j =>
    have hne : t.sp.val ≠ j.val := fun e => hp ((Fin.ext e : (⟨t.sp.val, hs⟩ : Fin 16) = j) ▸ hj)
    exact (Vector.getElem_set_ne hs j.isLt hne).trans (h (.stk j) hp)
  | _ => exact h _ hp

theorem unchangedBut.pop (h : unchangedBut c s t) (hsp : c .sp) : unchangedBut c s t.pop := by
  intro p hp
  cases p with
  | sp => exact absurd hsp hp
  | _ => exact h _ hp

theorem unchangedBut.setResultAndFlag (h : unchangedBut c s t) {x : Nibble} {b : Byte} {f : Bool}
    (hx : c (.reg x)) (hf : c (.reg 0xF#4)) : unchangedBut c s (t.setResultAndFlag x b f) :=
  (h.setV hx).setV hf

/-- LD Vx,[I]'s register write reaches V0 to Vx alone (42_index_memory.md R135). -/
theorem unchangedBut.loadRegisters (h : unchangedBut c s t) {x : Nibble}
    (hx : ∀ r : Nibble, r.toNat ≤ x.toNat → c (.reg r)) : unchangedBut c s (t.loadRegisters x) :=
  h.setRegisters fun r hr => by
    have hgt : ¬ r.toNat ≤ x.toNat := fun hle => hr (hx r hle)
    exact (State.getV_loadRegisters t x r).trans (if_neg hgt)

/-! ### The host's operations (60_exceptions.md R174 to R177) -/

theorem unchangedBut.tick (h : unchangedBut c s t) (hd : c .dt) (hs : c .st) : unchangedBut c s t.tick :=
  (h.setDt (b := countDown t.dt) hd).setSt (b := countDown t.st) hs

theorem unchangedBut.setPressed (h : unchangedBut c s t) {k : Nibble} (hk : c (.key k)) (hl : c .lk)
    (hv : c .lkv) : unchangedBut c s (t.setPressed k) := by
  rcases State.setPressed_cases k t with ⟨-, e⟩ | ⟨-, e⟩
  · rwa [e]
  · rw [e]
    exact ((h.setKey hk).setLk hl).setLkv hv

theorem unchangedBut.setReleased (h : unchangedBut c s t) {k : Nibble} (hk : c (.key k)) :
    unchangedBut c s (t.setReleased k) := h.setKey hk

theorem unchangedBut.clearDirty (h : unchangedBut c s t) (hd : c .dirty) : unchangedBut c s t.clearDirty :=
  h.setDirty hd

end Sys2Proof.Machine
end

section
/-! What the blit touches (43_display.md R141): the listed targets are the cells of `spriteTarget`, and no other cell
changes. -/

namespace Sys2Proof.Machine

theorem mem_rowTargets {ox : Nat} {ry cy : Fin 32} {cx : Fin 64} {b : Byte} :
    (cy, cx) ∈ rowTargets ox ry b ↔
      cy = ry ∧ ∃ k, k < 8 ∧ b.getLsbD (7 - k) = true ∧ cx.val = (ox + k) % 64 := by
  simp only [rowTargets, List.mem_map, List.mem_filter, List.mem_range, Prod.mk.injEq]
  constructor
  · rintro ⟨k, ⟨hk, hb⟩, rfl, rfl⟩
    exact ⟨rfl, k, hk, hb, rfl⟩
  · rintro ⟨rfl, k, hk, hb, hx⟩
    exact ⟨k, ⟨hk, hb⟩, rfl, Fin.ext hx.symm⟩

/-- The list the blit folds over holds exactly the targets of the sprite's 1 bits. -/
theorem mem_spriteTargets {ox oy : Nat} {rows : List Byte} {cy : Fin 32} {cx : Fin 64} :
    (cy, cx) ∈ spriteTargets ox oy rows ↔ spriteTarget ox oy rows cy cx := by
  induction rows generalizing oy with
  | nil => simp [spriteTargets, spriteTarget]
  | cons b rows ih =>
    rw [spriteTargets, List.mem_append, mem_rowTargets, ih]
    constructor
    · rintro (⟨rfl, k, hk, hb, hx⟩ | ⟨r, k, hr, hk, hb, hy, hx⟩)
      · exact ⟨0, k, Nat.succ_pos _, hk, hb, rfl, hx⟩
      · exact ⟨r + 1, k, Nat.succ_lt_succ hr, hk, hb, by rw [hy]; congr 1; omega, hx⟩
    · rintro ⟨_ | r, k, hr, hk, hb, hy, hx⟩
      · exact .inl ⟨Fin.ext hy, k, hk, hb, hx⟩
      · exact .inr ⟨r, k, Nat.lt_of_succ_lt_succ hr, hk, hb, by rw [hy]; congr 1; omega, hx⟩

theorem cell_foldl_togglePixel_of_not_mem {ps : List (Fin 32 × Fin 64)} {cy : Fin 32} {cx : Fin 64}
    (h : (cy, cx) ∉ ps) (acc : Grid × Bool) : (ps.foldl togglePixel acc).1.cell cy cx = acc.1.cell cy cx := by
  induction ps generalizing acc with
  | nil => rfl
  | cons p ps ih =>
    obtain ⟨hp, hps⟩ := List.ne_and_not_mem_of_not_mem_cons h
    rw [List.foldl_cons, ih hps, togglePixel, Grid.cell_toggle,
      if_neg fun e => hp (Prod.ext e.1 e.2)]

/-- The blit leaves every cell that is no target as it was. -/
theorem cell_blit_of_not_target {g : Grid} {ox oy : Nat} {rows : List Byte} {cy : Fin 32} {cx : Fin 64}
    (h : ¬ spriteTarget ox oy rows cy cx) : (blit g ox oy rows).1.cell cy cx = g.cell cy cx :=
  cell_foldl_togglePixel_of_not_mem (mt mem_spriteTargets.mp h) (g, false)

end Sys2Proof.Machine
end

section
/-! What the execution of an instruction can do, said once: it answers a next state, it ends in a completion or in
its own fault, and it writes only what its rule names. -/

namespace Sys2Proof.Machine

variable {s t : State}

/-! ### The instructions that can fault -/

theorem exec_call_of_lt {nnn : Addr} (h : s.sp.val < 16) :
    exec (.call nnn) s = .next ((s.push (s.pc + 2#16) h).setPc (nnn.zeroExtend 16)) := dif_pos h

theorem exec_call_of_full {nnn : Addr} (h : ¬ s.sp.val < 16) :
    exec (.call nnn) s = .next (s.raise .stackOverflow 0#16) := dif_neg h

theorem exec_ret_of_pos (h : 0 < s.sp.val) : exec .ret s = .next (s.pop.setPc (s.top h)) := dif_pos h

theorem exec_ret_of_empty (h : ¬ 0 < s.sp.val) : exec .ret s = .next (s.raise .stackUnderflow 0#16) := dif_neg h

/-- CALL pushes and jumps, or overflows (40_step_and_control.md R87). -/
theorem exec_call_cases (nnn : Addr) (s : State) :
    (∃ h : s.sp.val < 16, exec (.call nnn) s = .next ((s.push (s.pc + 2#16) h).setPc (nnn.zeroExtend 16))) ∨
    s.sp.val = 16 ∧ exec (.call nnn) s = .next (s.raise .stackOverflow 0#16) := by
  by_cases h : s.sp.val < 16
  · exact .inl ⟨h, exec_call_of_lt h⟩
  · exact .inr ⟨by omega, exec_call_of_full h⟩

/-- RET pops and jumps, or underflows (40_step_and_control.md R88). -/
theorem exec_ret_cases (s : State) :
    (∃ h : 0 < s.sp.val, exec .ret s = .next (s.pop.setPc (s.top h))) ∨
    s.sp.val = 0 ∧ exec .ret s = .next (s.raise .stackUnderflow 0#16) := by
  by_cases h : 0 < s.sp.val
  · exact .inl ⟨h, exec_ret_of_pos h⟩
  · exact .inr ⟨by omega, exec_ret_of_empty h⟩

theorem exists_overSpan_eq_next (len : Nat) (s d : State) : ∃ t, overSpan len s d = .next t := by
  unfold overSpan
  split <;> exact ⟨_, rfl⟩

/-! ### Every instruction and every step answers a next state -/

theorem exists_exec_eq_next (i : Instr) (s : State) : ∃ t, exec i s = .next t := by
  cases i with
  | call nnn => rcases exec_call_cases nnn s with ⟨_, e⟩ | ⟨_, e⟩ <;> exact ⟨_, e⟩
  | ret => rcases exec_ret_cases s with ⟨_, e⟩ | ⟨_, e⟩ <;> exact ⟨_, e⟩
  | drw | ldB | ldMemVx | ldVxMem => exact exists_overSpan_eq_next _ _ _
  | _ => exact ⟨_, rfl⟩

theorem exists_step_eq_next (s : State) : ∃ t, step s = .next t := by
  unfold step
  split
  · exact ⟨_, rfl⟩
  · exact ⟨_, rfl⟩
  · split
    · exact ⟨_, rfl⟩
    · split
      · exact exists_exec_eq_next _ s
      · exact ⟨_, rfl⟩

/-! ### The frame of every instruction -/

theorem length_registersUpTo (x : Nibble) (s : State) : (registersUpTo x s).length = x.toNat + 1 := by
  simp [registersUpTo]
  omega

/-- The frame of an instruction that checks the bytes it touches first: its own, or the mode for its fault. -/
theorem unchangedBut_of_overSpan {c : Part → Prop} {len : Nat} {d : State} (h : overSpan len s d = .next t)
    (hd : unchangedBut c s d) (hm : c .mode) : unchangedBut c s t := by
  rcases overSpan_cases h with ⟨-, rfl⟩ | ⟨-, rfl⟩
  · exact hd
  · exact (unchangedBut.refl c s).raise hm

/-- The bytes an instruction stores from I[11:0] on are the ones that change. -/
theorem unchangedBut_storeBytes {c : Part → Prop} (bs : List Byte)
    (hb : ∀ a, dataBase s ≤ a → a < dataBase s + bs.length → c (.byte a)) (hpc : c .pc) :
    unchangedBut c s (s.setMem (Memory.writeBytes s.mem (dataBase s) bs)).advance := by
  refine ((unchangedBut.refl c s).setMem fun a ha => ?_).advance hpc
  refine Memory.read_writeBytes_outside ?_
  by_contra hin
  exact ha (hb a (by omega) (by omega))

/-- 10_state.md R24, 20_memory.md R55: what an instruction does not name it leaves alone. -/
theorem exec_frame {i : Instr} (h : exec i s = .next t) : unchangedBut (mayWrite i s) s t := by
  have start := unchangedBut.refl (mayWrite i s) s
  cases i with
  | call nnn =>
    rcases exec_call_cases nnn s with ⟨hsp, e⟩ | ⟨-, e⟩ <;> cases e.symm.trans h
    · exact (start.push (.inl ⟨nnn, rfl⟩) ⟨rfl, nnn, rfl⟩).setPc nofun
    · exact start.raise (.inl trivial)
  | ret =>
    rcases exec_ret_cases s with ⟨hsp, e⟩ | ⟨-, e⟩ <;> cases e.symm.trans h
    · exact (start.pop (.inr rfl)).setPc nofun
    · exact start.raise (.inl trivial)
  | drw x y n =>
    refine unchangedBut_of_overSpan h ?_ (.inl trivial)
    have blitted := start.setFb fun cy cx hc =>
      cell_blit_of_not_target fun ht => hc (.inr ⟨x, y, n, rfl, ht⟩)
    exact ((blitted.setV rfl).setDirty (.inr ⟨x, y, n, rfl⟩)).advance nofun
  | ldB x =>
    exact unchangedBut_of_overSpan h
      (unchangedBut_storeBytes _ (fun a hl hu => ⟨hl, hu, .inl ⟨x, rfl⟩⟩) nofun) (.inl trivial)
  | ldMemVx x =>
    refine unchangedBut_of_overSpan h (unchangedBut_storeBytes _ (fun a hl hu => ?_) nofun) (.inl trivial)
    rw [length_registersUpTo] at hu
    exact ⟨hl, hu, .inr ⟨x, rfl⟩⟩
  | ldVxMem x =>
    exact unchangedBut_of_overSpan h ((start.loadRegisters fun _ hr => hr).advance nofun) (.inl trivial)
  | ldVxK x =>
    cases h
    exact (start.setMode (.inr ⟨x, rfl⟩)).setLkv ⟨x, rfl⟩
  | cls =>
    cases h
    exact ((start.setFb fun _ _ hc => absurd (.inl rfl) hc).setDirty (.inl rfl)).advance nofun
  | rnd x kk =>
    cases h
    exact ((start.countDraw ⟨x, kk, rfl⟩).setV rfl).advance nofun
  | ldImm | addImm | ldReg | orReg | andReg | xorReg | ldVxDt =>
    cases h
    exact (start.setV rfl).advance nofun
  | addReg | subReg | subnReg | shr | shl =>
    cases h
    exact (start.setResultAndFlag (.inl rfl) (.inr rfl)).advance nofun
  | ldI nnn =>
    cases h
    exact (start.setIndex (.inl ⟨nnn, rfl⟩)).advance nofun
  | addI x =>
    cases h
    exact (start.setIndex (.inr (.inl ⟨x, rfl⟩))).advance nofun
  | ldF x =>
    cases h
    exact (start.setIndex (.inr (.inr ⟨x, rfl⟩))).advance nofun
  | ldDtVx x =>
    cases h
    exact (start.setDt ⟨x, rfl⟩).advance nofun
  | ldStVx x =>
    cases h
    exact (start.setSt ⟨x, rfl⟩).advance nofun
  | jp | jpV0 =>
    cases h
    exact start.setPc nofun
  | seImm | sneImm | seReg | sneReg | skp | sknp =>
    cases h
    exact start.skipIf nofun

end Sys2Proof.Machine
end

section
/-! What a step can do, said once: a step of a Running machine executes an instruction or shows the cause of its
fault; an instruction ends in its fault, in the key wait or in mode Running. -/

namespace Sys2Proof.Machine

variable {s t : State}

/-! ### The words of no instruction (30_encoding.md R67) -/

theorem digitFits_none (d : Nibble) : digitFits none d = true := rfl

theorem digitFits_some {v d : Nibble} : digitFits (some v) d = true ↔ d.toNat = v.toNat := by
  rw [digitFits, beq_iff_eq, BitVec.toNat_inj, eq_comm]

/-- A low byte told by its two digits. -/
theorem mod_256_eq_iff {n k : Nat} (hk : k < 256) : n % 256 = k ↔ n / 16 % 16 = k / 16 ∧ n % 16 = k % 16 := by
  omega

/-- The words that fit no row of the opcode table are those of R67's list: for each major, the rows that have it. -/
theorem decodeWord_eq_none_iff {w : Word} : decodeWord w = none ↔ illegalWord w = true := by
  rw [decodeWord, Option.map_eq_none_iff, List.find?_eq_none]
  simp only [opcodes, List.forall_mem_cons, Pattern.fits, Opcode.pattern, Bool.and_eq_true, digitFits_none,
    digitFits_some, fieldMajor_toNat, fieldX_toNat, fieldY_toNat, fieldN_toNat, illegalWord, illegalMajor0,
    illegalMajor5, illegalMajor8, illegalMajor9, illegalMajorE, illegalMajorF]
  have hlt : w.toNat / 4096 < 16 := by
    have := w.isLt
    omega
  interval_cases hM : w.toNat / 4096 <;> simp [mod_256_eq_iff, ← not_and_or]
  · omega -- major 0
  · omega -- major 8
  · grind -- major F

/-! ### The step by its cases -/

theorem pc_lt_of_fetch_eq_word {w : Word} (h : fetch s = .word w) : s.pc.toNat < 4095 := by
  rcases fetch_cases s with ⟨-, e⟩ | ⟨-, e⟩ | ⟨hpc, -⟩
  · cases e.symm.trans h
  · cases e.symm.trans h
  · exact hpc

theorem executes.pc_lt {i : Instr} (h : executes s i) : s.pc.toNat < 4095 :=
  have ⟨_, _, hw, _⟩ := h
  pc_lt_of_fetch_eq_word hw

/-- 40_step_and_control.md R80 to R82: what a step can be. -/
theorem step_cases (h : step s = .next t) :
    (∃ f a, s.mode = .halted f a ∧ t = s) ∨
    (∃ x, s.mode = .waitingForKey x ∧ t = s.stepWaiting x) ∨
    (s.mode = .running ∧ ∃ f a, faultStands s f a ∧ t = s.raise f a) ∨
    ∃ i, executes s i ∧ exec i s = .next t := by
  unfold step at h
  split at h
  next f a hm => cases h; exact .inl ⟨f, a, hm, rfl⟩
  next x hm => cases h; exact .inr (.inl ⟨x, hm, rfl⟩)
  next hm =>
    refine .inr (.inr ?_)
    split at h
    next a hf => cases h; exact .inl ⟨hm, .memoryOutOfBounds, a, .inl hf, rfl⟩
    next w hf =>
      split at h
      next i hd => exact .inr ⟨i, ⟨hm, w, hf, hd⟩, h⟩
      next hd =>
        cases h
        exact .inl ⟨hm, .unrecognizedOpcode, w, ⟨hf, decodeWord_eq_none_iff.mp hd⟩, rfl⟩

/-- An instruction that checks the bytes it touches raises its fault where they leave memory. -/
theorem overSpan_ends {i : Instr} {d : State} (hi : executes s i) (h : overSpan (dataLength i) s d = .next t)
    (hd : d.mode = s.mode) : (∃ f a, faultStands s f a ∧ t = s.raise f a) ∨ t.mode = s.mode := by
  obtain ⟨-, w, hf, hw⟩ := hi
  rcases overSpan_cases h with ⟨-, rfl⟩ | ⟨hlen, rfl⟩
  · exact .inr hd
  · exact .inl ⟨.memoryOutOfBounds, 4096#16, .inr ⟨rfl, w, i, hf, hw, hlen⟩, rfl⟩

/-- The ends of an instruction: its own fault with the cause standing, the key wait, or the mode as it was. -/
theorem exec_ends {i : Instr} (hi : executes s i) (h : exec i s = .next t) :
    (∃ f a, faultStands s f a ∧ t = s.raise f a) ∨
    (∃ x, i = .ldVxK x ∧ t = (s.setMode (.waitingForKey x)).setLkv false) ∨ t.mode = s.mode := by
  have ⟨_, w, hf, hw⟩ := hi
  cases i with
  | call nnn =>
    rcases exec_call_cases nnn s with ⟨_, e⟩ | ⟨hsp, e⟩ <;> cases e.symm.trans h
    · exact .inr (.inr rfl)
    · exact .inl ⟨.stackOverflow, 0#16, ⟨rfl, hsp, w, nnn, hf, hw⟩, rfl⟩
  | ret =>
    rcases exec_ret_cases s with ⟨_, e⟩ | ⟨hsp, e⟩ <;> cases e.symm.trans h
    · exact .inr (.inr rfl)
    · exact .inl ⟨.stackUnderflow, 0#16, ⟨rfl, hsp, w, hf, hw⟩, rfl⟩
  | drw | ldB | ldMemVx | ldVxMem => exact (overSpan_ends hi h rfl).imp_right .inr
  | ldVxK x =>
    cases h
    exact .inr (.inl ⟨x, rfl, rfl⟩)
  | _ => exact .inr (.inr (exec_frame h .mode (by simp [mayWrite, mayFault])))

end Sys2Proof.Machine
end

section
/-! The invariants of 10_state.md R25, part by part over every instruction, and over the step. -/

namespace Sys2Proof.Machine

variable {s t : State} {i : Instr}

/-! ### Addresses and pc as numbers -/

theorem zeroExtend_addr_lt (nnn : Addr) : (nnn.zeroExtend 16).toNat < 4096 := by
  rw [BitVec.toNat_setWidth]
  exact (Nat.mod_le _ _).trans_lt nnn.isLt

theorem State.toNat_advance_pc (h : s.pc.toNat < 4095) : s.advance.pc.toNat = s.pc.toNat + 2 := by
  rw [State.advance_pc, BitVec.toNat_add]
  exact Nat.mod_eq_of_lt (by simp; omega)

theorem State.toNat_skip_pc (h : s.pc.toNat < 4095) : s.skip.pc.toNat = s.pc.toNat + 4 := by
  rw [State.skip_pc, BitVec.toNat_add]
  exact Nat.mod_eq_of_lt (by simp; omega)

/-- 40_step_and_control.md R96: JP V0,nnn reaches 0xFFF + 0xFF at most. -/
theorem toNat_addr_add_byte_le (nnn : Addr) (b : Byte) : (nnn.zeroExtend 16 + b.zeroExtend 16).toNat ≤ 0x10FE := by
  rw [BitVec.toNat_add, BitVec.toNat_setWidth, BitVec.toNat_setWidth]
  have := nnn.isLt
  have := b.isLt
  omega

/-! ### Instructions -/

theorem exec_keeps_memory (h : exec i s = .next t) (hs : Memory.wf s.mem) : Memory.wf t.mem := by
  cases i with
  | call nnn => rcases exec_call_cases nnn s with ⟨_, e⟩ | ⟨_, e⟩ <;> cases e.symm.trans h <;> exact hs
  | ret => rcases exec_ret_cases s with ⟨_, e⟩ | ⟨_, e⟩ <;> cases e.symm.trans h <;> exact hs
  | drw | ldVxMem => rcases overSpan_cases h with ⟨_, rfl⟩ | ⟨_, rfl⟩ <;> exact hs
  | ldB | ldMemVx =>
    rcases overSpan_cases h with ⟨_, rfl⟩ | ⟨_, rfl⟩
    · exact Memory.wf_writeBytes _ _ hs
    · exact hs
  | seImm | sneImm | seReg | sneReg | skp | sknp =>
    cases h
    rw [State.skipIf_eq_setPc]
    exact hs
  | _ =>
    cases h
    exact hs

theorem exec_index_lt (h : exec i s = .next t) (hs : s.index.toNat < 4096) : t.index.toNat < 4096 := by
  by_cases hw : mayWrite i s .index
  · rcases hw with ⟨nnn, rfl⟩ | ⟨x, rfl⟩ | ⟨x, rfl⟩ <;> cases h
    · exact zeroExtend_addr_lt nnn
    · exact (Nat.mod_le _ _).trans_lt (Nat.mod_lt _ (by decide))
    · have := (s.getV x).isLt
      exact (Nat.mod_le _ _).trans_lt (by omega)
  · rw [exec_frame h .index hw]
    exact hs

/-- CALL pushes pc + 2, at most 4096; no other instruction writes a stack entry. -/
theorem exec_stack_le (h : exec i s = .next t) (hpc : s.pc.toNat < 4095) (hs : ∀ j : Fin 16, s.stk[j].toNat ≤ 4096)
    (j : Fin 16) : t.stk[j].toNat ≤ 4096 := by
  by_cases hw : mayWrite i s (.stk j)
  · obtain ⟨hj, nnn, rfl⟩ := hw
    have hsp : s.sp.val < 16 := hj ▸ j.isLt
    cases (exec_call_of_lt hsp).symm.trans h
    have pushed : (s.stk.set s.sp.val s.advance.pc hsp)[j] = s.advance.pc := by simp [← hj]
    have := State.toNat_advance_pc hpc
    exact (congrArg BitVec.toNat pushed).le.trans (by omega)
  · rw [exec_frame h (.stk j) hw]
    exact hs j

/-- 40_step_and_control.md R96: where pc can be after an instruction fetched below 4095. -/
theorem exec_pc_le (h : exec i s = .next t) (hpc : s.pc.toNat < 4095) (hs : ∀ j : Fin 16, s.stk[j].toNat ≤ 4096) :
    t.pc.toNat ≤ 0x10FE := by
  have stay : s.pc.toNat ≤ 0x10FE := by omega
  have next : s.advance.pc.toNat ≤ 0x10FE := by rw [State.toNat_advance_pc hpc]; omega
  have skip : s.skip.pc.toNat ≤ 0x10FE := by rw [State.toNat_skip_pc hpc]; omega
  have target (nnn : Addr) : (nnn.zeroExtend 16).toNat ≤ 0x10FE := (zeroExtend_addr_lt nnn).le.trans (by decide)
  cases i with
  | jp nnn => cases h; exact target nnn
  | jpV0 nnn => cases h; exact toNat_addr_add_byte_le nnn (s.getV 0#4)
  | call nnn =>
    rcases exec_call_cases nnn s with ⟨_, e⟩ | ⟨_, e⟩ <;> cases e.symm.trans h
    · exact target nnn
    · exact stay
  | ret =>
    rcases exec_ret_cases s with ⟨hsp, e⟩ | ⟨_, e⟩ <;> cases e.symm.trans h
    · exact (hs ⟨s.sp.val - 1, by omega⟩).trans (by decide)
    · exact stay
  | drw | ldB | ldMemVx | ldVxMem =>
    rcases overSpan_cases h with ⟨_, rfl⟩ | ⟨_, rfl⟩
    · exact next
    · exact stay
  | seImm | sneImm | seReg | sneReg | skp | sknp =>
    cases h
    unfold State.skipIf
    split
    · exact skip
    · exact next
  | ldVxK => cases h; exact stay
  | _ => cases h; exact next

/-! ### States -/

/-- In mode Running the invariants are those of memory, I, pc and the stack. -/
theorem State.Inv.of_running (memory : Memory.wf s.mem) (index : s.index.toNat < 4096) (pc : s.pc.toNat ≤ 0x10FE)
    (stack : ∀ j : Fin 16, s.stk[j].toNat ≤ 4096) (hm : s.mode = .running) : s.Inv where
  memory := memory
  index := index
  pc := pc
  stack := stack
  waiting _ h := nomatch hm.symm.trans h
  halted _ _ h := nomatch hm.symm.trans h

/-- A fault whose cause stands leaves the invariants (60_exceptions.md R164). -/
theorem State.Inv.raise {f : Fault} {a : Word} (hs : s.Inv) (hf : faultStands s f a) : (s.raise f a).Inv where
  memory := hs.memory
  index := hs.index
  pc := hs.pc
  stack := hs.stack
  waiting _ h := nomatch h
  halted _ _ h := by cases h; exact hf

/-- Entering the key wait leaves the machine at its LD Vx,K (44_keypad_timers.md R152). -/
theorem State.Inv.wait {x : Nibble} (hs : s.Inv) (hi : executes s (.ldVxK x)) :
    ((s.setMode (.waitingForKey x)).setLkv false).Inv where
  memory := hs.memory
  index := hs.index
  pc := hs.pc
  stack := hs.stack
  waiting _ h := by cases h; exact hi.2
  halted _ _ h := nomatch h

theorem State.Inv.exec (hs : s.Inv) (hi : executes s i) (h : exec i s = .next t) : t.Inv := by
  rcases exec_ends hi h with ⟨f, a, hf, rfl⟩ | ⟨x, rfl, rfl⟩ | hm
  · exact hs.raise hf
  · exact hs.wait hi
  · exact .of_running (exec_keeps_memory h hs.memory) (exec_index_lt h hs.index)
      (exec_pc_le h hi.pc_lt hs.stack) (exec_stack_le h hi.pc_lt hs.stack) (hm.trans hi.1)

theorem State.Inv.stepWaiting {x : Nibble} (hs : s.Inv) (hm : s.mode = .waitingForKey x) :
    (s.stepWaiting x).Inv := by
  rcases State.stepWaiting_cases x s with ⟨-, e⟩ | ⟨-, e⟩ <;> rw [e]
  · exact hs
  · obtain ⟨w, hf, -⟩ := hs.waiting x hm
    have hpc := pc_lt_of_fetch_eq_word hf
    have resumed : s.advance.pc.toNat ≤ 0x10FE := by rw [State.toNat_advance_pc hpc]; omega
    exact .of_running hs.memory hs.index resumed hs.stack rfl

theorem State.Inv.step (hs : s.Inv) (h : step s = .next t) : t.Inv := by
  rcases step_cases h with ⟨f, a, -, rfl⟩ | ⟨x, hm, rfl⟩ | ⟨-, f, a, hf, rfl⟩ | ⟨i, hi, he⟩
  · exact hs
  · exact hs.stepWaiting hm
  · exact hs.raise hf
  · exact hs.exec hi he

end Sys2Proof.Machine
end

section
/-! The invariants over the host's operations (60_exceptions.md R170 to R181) and over every reachable session. -/

namespace Sys2Proof.Machine

variable {s t : State} {m m' : Session}

/-! ### What the invariants read -/

theorem fetch_congr (memory : t.mem = s.mem) (pc : t.pc = s.pc) : fetch t = fetch s := by
  rw [fetch, fetch, pc, memory]

/-- The cause of a fault is told by memory, pc, I and SP alone. -/
theorem faultStands_congr (memory : t.mem = s.mem) (pc : t.pc = s.pc) (index : t.index = s.index) (sp : t.sp = s.sp)
    (f : Fault) (a : Word) : faultStands t f a ↔ faultStands s f a := by
  cases f <;> simp only [faultStands, fetch_congr memory pc, dataBase, index, sp]

/-- Two states alike in memory, I, pc, the stack and the mode meet the invariants together. -/
theorem State.Inv.congr (hs : s.Inv) (memory : t.mem = s.mem) (index : t.index = s.index) (pc : t.pc = s.pc)
    (sp : t.sp = s.sp) (stk : t.stk = s.stk) (mode : t.mode = s.mode) : t.Inv where
  memory := memory ▸ hs.memory
  index := index ▸ hs.index
  pc := pc ▸ hs.pc
  stack := stk ▸ hs.stack
  waiting x h := fetch_congr memory pc ▸ hs.waiting x (mode ▸ h)
  halted f a h := (faultStands_congr memory pc index sp f a).mpr (hs.halted f a (mode ▸ h))

/-! ### The host's operations -/

theorem State.Inv.reset : State.reset.Inv :=
  .of_running Memory.wf_nil (by decide) (by decide) (by decide) rfl

theorem State.Inv.setPressed (hs : s.Inv) (k : Nibble) : (s.setPressed k).Inv := by
  rcases State.setPressed_cases k s with ⟨-, e⟩ | ⟨-, e⟩ <;> rw [e]
  · exact hs
  · exact hs.congr rfl rfl rfl rfl rfl rfl

@[simp] theorem State.setPressed_mode (k : Nibble) (s : State) : (s.setPressed k).mode = s.mode := by
  rcases State.setPressed_cases k s with ⟨-, e⟩ | ⟨-, e⟩ <;> rw [e]

/-- A load into a Running machine writes memory alone (60_exceptions.md R172). -/
theorem State.Inv.load (hs : s.Inv) (hm : s.mode = .running) (bytes : List Byte) : (s.load bytes).1.Inv := by
  unfold State.load
  split
  · exact hs
  · exact .of_running (Memory.wf_writeBytes _ _ hs.memory) hs.index hs.pc hs.stack hm

@[simp] theorem State.load_mode (bytes : List Byte) (s : State) : (s.load bytes).1.mode = s.mode := by
  unfold State.load
  split <;> rfl

/-- An operation keeps the window when it leaves the mode and the count of steps as they are. -/
theorem Session.Inv.update (hm : m.Inv) (ht : t.Inv) (mode : t.mode = m.state.mode) :
    Session.Inv { m with state := t } where
  state := ht
  window h := mode.trans (hm.window h)

/-- 60_exceptions.md R170, R181: every operation that answers keeps the invariants. -/
theorem Session.Inv.apply {o : HostOp} {r : OpResult} (hm : m.Inv) (h : o.apply m = .next (m', r)) : m'.Inv := by
  have hs := hm.state
  cases o with
  | reset =>
    cases h
    exact ⟨State.Inv.reset.congr rfl rfl rfl rfl rfl rfl, fun _ => rfl⟩
  | load bytes =>
    rw [HostOp.apply] at h
    split at h <;> cases h
    next hstep =>
      have running := hm.window (Bool.eq_false_iff.mpr hstep)
      exact hm.update (hs.load running bytes) (State.load_mode bytes m.state)
  | step =>
    obtain ⟨t, e⟩ := exists_step_eq_next m.state
    simp only [HostOp.apply, e] at h
    cases h
    exact ⟨hs.step e, nofun⟩
  | setPressed k =>
    cases h
    exact hm.update (hs.setPressed k) (State.setPressed_mode k m.state)
  | tick | setReleased | clearDirty =>
    cases h
    exact hm.update (hs.congr rfl rfl rfl rfl rfl rfl) rfl
  | read =>
    cases h
    exact hm

theorem Session.Inv.start : Session.start.Inv := ⟨State.Inv.reset, fun _ => rfl⟩

theorem Reachable.inv (h : Reachable m) : m.Inv := by
  induction h with
  | start => exact Session.Inv.start
  | op o m m' r _ e ih => exact ih.apply e

end Sys2Proof.Machine
end

section
/-! A halted machine (60_exceptions.md R168, R181). -/

namespace Sys2Proof.Machine

/-- 10_state.md R25 (f): what the host's operations other than reset may still change in mode Halted. -/
def changesWhileHalted (p : Part) : Prop :=
  p = .dt ∨ p = .st ∨ p = .lkv ∨ p = .lk ∨ p = .dirty ∨ ∃ k, p = .key k

variable {m m' : Session} {f : Fault} {a : Word}

theorem step_eq_self_of_halted {s : State} (h : s.mode = .halted f a) : step s = .next s := by
  simp only [step, h, State.stepHalted]

theorem apply_step_of_halted (h : m.state.mode = .halted f a) :
    HostOp.step.apply m = .next (⟨m.state, true⟩, .step (.fault f a)) := by
  simp only [HostOp.apply, step_eq_self_of_halted h, State.stepResult, h]

theorem apply_frame_of_halted {o : HostOp} {r : OpResult} (hm : m.state.mode = .halted f a)
    (hstep : m.stepped = true) (ho : o ≠ .reset) (h : o.apply m = .next (m', r)) :
    unchangedBut changesWhileHalted m.state m'.state := by
  have start := unchangedBut.refl changesWhileHalted m.state
  cases o with
  | reset => exact absurd rfl ho
  | load bytes =>
    rw [HostOp.apply, if_pos hstep] at h
    cases h
  | step =>
    cases (apply_step_of_halted hm).symm.trans h
    exact start
  | tick =>
    cases h
    exact start.tick (by simp [changesWhileHalted]) (by simp [changesWhileHalted])
  | setPressed k =>
    cases h
    exact start.setPressed (by simp [changesWhileHalted]) (by simp [changesWhileHalted]) (by simp [changesWhileHalted])
  | setReleased k =>
    cases h
    exact start.setReleased (by simp [changesWhileHalted])
  | clearDirty =>
    cases h
    exact start.clearDirty (by simp [changesWhileHalted])
  | read =>
    cases h
    exact start

end Sys2Proof.Machine
end

section
/-! What no step reads (10_state.md R13, R18, R20): dirty, LK without a recorded press, and I[15:12]. Two machines
that differ only there run alike. -/

namespace Sys2Proof.Machine

/-- The state with dirty, LK and I at other values. -/
def State.withUnread (d : Bool) (k : Nibble) (w : Word) (s : State) : State :=
  { s with dirty := d, lk := k, index := w }

theorem State.withUnread_advance (d : Bool) (k : Nibble) (w : Word) (s : State) :
    (s.withUnread d k w).advance = s.advance.withUnread d k w := rfl

/-- The two runs answer next states that differ in dirty, LK and I alone, and in none of these where the states before
agreed on it. -/
def RunAlike (s : State) (d : Bool) (k : Nibble) (w : Word) (o o' : Host.Outcome State Fault Refusal) : Prop :=
  ∃ t d' w', o = .next t ∧ o' = .next (t.withUnread d' k w') ∧
    (d = s.dirty → d' = t.dirty) ∧ (k = s.lk → k = t.lk) ∧ (w = s.index → w' = t.index)

variable {s : State} {d : Bool} {k : Nibble} {w : Word}

/-- The outcomes of a run that leaves dirty, LK and I as they are. -/
theorem RunAlike.keep {t : State} (hd : t.dirty = s.dirty) (hk : t.lk = s.lk) (hw : t.index = s.index) :
    RunAlike s d k w (.next t) (.next (t.withUnread d k w)) :=
  ⟨t, d, w, rfl, rfl, hd ▸ id, hk ▸ id, hw ▸ id⟩

theorem dataBase_withUnread (hw : w.toNat % 4096 = s.index.toNat % 4096) :
    dataBase (s.withUnread d k w) = dataBase s := by
  rw [dataBase_eq, dataBase_eq]
  exact hw

/-- The bounds check reads I[11:0] alone, so both runs fault or both complete. -/
theorem RunAlike.overSpan {len : Nat} {e : State} {d' : Bool} (hw : w.toNat % 4096 = s.index.toNat % 4096)
    (hd : d = s.dirty → d' = e.dirty) (hk : e.lk = s.lk) (hi : e.index = s.index) :
    RunAlike s d k w (overSpan len s e) (overSpan len (s.withUnread d k w) (e.withUnread d' k w)) := by
  by_cases hlen : dataBase s + len ≤ 4096
  · have hlen' : dataBase (s.withUnread d k w) + len ≤ 4096 := by rwa [dataBase_withUnread hw]
    exact ⟨e, d', w, overSpan_inside hlen, overSpan_inside hlen', hd, hk ▸ id, hi ▸ id⟩
  · have hlen' : 4096 < dataBase (s.withUnread d k w) + len := by
      rw [dataBase_withUnread hw]
      omega
    rw [overSpan_beyond (Nat.lt_of_not_le hlen), overSpan_beyond hlen']
    exact .keep rfl rfl rfl

theorem RunAlike.skipIf {b : Bool} :
    RunAlike s d k w (.next (s.skipIf b)) (.next ((s.withUnread d k w).skipIf b)) := by
  rw [State.skipIf_eq_setPc, State.skipIf_eq_setPc]
  exact .keep rfl rfl rfl

/-- The resuming step reads LK, with a press recorded only (44_keypad_timers.md R153). -/
theorem RunAlike.stepWaiting {x : Nibble} (hk : s.lkv = true → k = s.lk) :
    RunAlike s d k w (.next (s.stepWaiting x)) (.next ((s.withUnread d k w).stepWaiting x)) := by
  have hv : (s.withUnread d k w).lkv = s.lkv := rfl
  unfold State.stepWaiting
  rw [hv]
  split
  next hl =>
    obtain rfl := hk hl
    exact .keep rfl rfl rfl
  next => exact .keep rfl rfl rfl

/-- What an instruction computes from I it computes from I[11:0]; from dirty DRW alone computes, and only dirty. -/
theorem exec_withUnread (i : Instr) (hw : w.toNat % 4096 = s.index.toNat % 4096) :
    RunAlike s d k w (exec i s) (exec i (s.withUnread d k w)) := by
  have hb : dataBase (s.withUnread d k w) = dataBase s := dataBase_withUnread hw
  cases i with
  | cls => exact ⟨_, true, w, rfl, rfl, fun _ => rfl, id, id⟩
  | ldI nnn => exact ⟨_, d, nnn.zeroExtend 16, rfl, rfl, id, id, fun _ => rfl⟩
  | ldF x => exact ⟨_, d, _, rfl, rfl, id, id, fun _ => rfl⟩
  | addI x => exact ⟨_, d, _, rfl, rfl, id, id, fun e => by subst e; rfl⟩
  | call nnn =>
    by_cases h : s.sp.val < 16
    · rw [exec_call_of_lt h, exec_call_of_lt (s := s.withUnread d k w) h]
      exact .keep rfl rfl rfl
    · rw [exec_call_of_full h, exec_call_of_full (s := s.withUnread d k w) h]
      exact .keep rfl rfl rfl
  | ret =>
    by_cases h : 0 < s.sp.val
    · rw [exec_ret_of_pos h, exec_ret_of_pos (s := s.withUnread d k w) h]
      exact .keep rfl rfl rfl
    · rw [exec_ret_of_empty h, exec_ret_of_empty (s := s.withUnread d k w) h]
      exact .keep rfl rfl rfl
  | drw x y n =>
    have hr : spriteRows n (s.withUnread d k w) = spriteRows n s := by rw [spriteRows, spriteRows, hb]; rfl
    simp only [exec, execDrw, hr]
    exact .overSpan (d' := d || anyPixel (spriteRows n s)) hw (by rintro rfl; rfl) rfl rfl
  | ldB x =>
    simp only [exec, execLdB, hb]
    exact .overSpan hw id rfl rfl
  | ldMemVx x =>
    simp only [exec, execLdMemVx, hb]
    exact .overSpan hw id rfl rfl
  | ldVxMem x =>
    have hl : (s.withUnread d k w).loadRegisters x = (s.loadRegisters x).withUnread d k w := by
      simp only [State.loadRegisters, hb]
      rfl
    simp only [exec, execLdVxMem, hl, State.withUnread_advance]
    exact .overSpan (d' := d) hw (by simp) (by simp) (by simp)
  | seImm | sneImm | seReg | sneReg | skp | sknp =>
    exact .skipIf
  | _ => exact .keep rfl rfl rfl

/-- 10_state.md R13, R18, R20: a step reads none of dirty, LK without a recorded press, and I[15:12]. -/
theorem step_withUnread (hw : w.toNat % 4096 = s.index.toNat % 4096) (hk : s.lkv = true → k = s.lk) :
    RunAlike s d k w (step s) (step (s.withUnread d k w)) := by
  have hm' : (s.withUnread d k w).mode = s.mode := rfl
  have hf : fetch (s.withUnread d k w) = fetch s := rfl
  unfold step
  rw [hm', hf]
  split
  · exact .keep rfl rfl rfl
  · exact .stepWaiting hk
  · split
    · exact .keep rfl rfl rfl
    · split
      · exact exec_withUnread _ hw
      · exact .keep rfl rfl rfl

end Sys2Proof.Machine
end

section
/-! The statements of 10_state.md, settled. -/

namespace Sys2Proof.Machine

/-- Settles O55: the step's cases, each with its own rule for the invariants. -/
theorem stepKeepsTheInvariants : Obligations.StepKeepsTheInvariants := fun _ _ hs h => hs.step h

/-- Settles O56: operation by operation; before the first step the machine is Running, so a load disturbs no
waiting and no halted machine. -/
theorem hostOperationsKeepTheInvariants : Obligations.HostOperationsKeepTheInvariants :=
  fun _ _ _ _ hm h => hm.apply h

/-- Settles O45: the frame of each instruction is the chain of its updates' frames. -/
theorem everyInstructionWritesOnlyWhatItNames : Obligations.EveryInstructionWritesOnlyWhatItNames :=
  fun _ _ _ h => exec_frame h

/-- Settles O46: each clause is `step_withUnread` with two of the three values left as they are. -/
theorem unreadStateDoesNotLeak : Obligations.UnreadStateDoesNotLeak := by
  refine ⟨fun s b => ?_, fun s k hlkv => ?_, fun s w hw => ?_⟩
  · obtain ⟨t, d', w', h, h', -, hk, hi⟩ := step_withUnread (s := s) (d := b) rfl fun _ => rfl
    cases hi rfl
    exact ⟨t, _, h, h', hk rfl ▸ (unchangedBut.refl _ t).setDirty rfl⟩
  · obtain ⟨t, d', w', h, h', hd, -, hi⟩ :=
      step_withUnread (s := s) (d := s.dirty) (k := k) rfl fun hl => absurd (hlkv.symm.trans hl) nofun
    cases hi rfl
    cases hd rfl
    exact ⟨t, _, h, h', (unchangedBut.refl _ t).setLk rfl⟩
  · obtain ⟨t, d', w', h, h', hd, hk, -⟩ := step_withUnread (s := s) (d := s.dirty) hw fun _ => rfl
    cases hd rfl
    exact ⟨t, _, h, h', hk rfl ▸ (unchangedBut.refl _ t).setIndex rfl⟩

/-- Settles O53: a halted machine's step is the identity, and no other operation but reset writes outside
`changesWhileHalted`. -/
theorem haltedIsFinal : Obligations.HaltedIsFinal := by
  refine fun m f a hm => ⟨apply_step_of_halted hm, fun o m' r hstep ho h => ?_⟩
  have frame := apply_frame_of_halted hm hstep ho h
  exact ⟨(frame .mode (by simp [changesWhileHalted])).trans hm, frame⟩

/-- Settles O57: by induction over the host's operations; a step from there keeps the invariants. -/
theorem reachableStatesMeetTheInvariants : Obligations.ReachableStatesMeetTheInvariants := by
  intro m hr
  obtain ⟨t, ht⟩ := exists_step_eq_next m.state
  exact ⟨hr.inv.state, t, ht, hr.inv.state.step ht⟩

/-- Settles O51: each value as the reset state gives it; from 0x050 on an address is past the font. -/
theorem resetValues : Obligations.ResetValues := by
  unfold Obligations.ResetValues
  have pastFont (a : Nat) (hlo : 0x050 ≤ a) (_ : a ≤ 0xFFF) : Memory.read State.reset.mem a = 0 :=
    List.getD_eq_default _ _ hlo
  exact ⟨by decide, rfl, rfl, rfl, by decide, rfl, rfl, by decide, pastFont, Grid.cell_clear, rfl, by decide,
    rfl, rfl, rfl⟩

/-- Settles O54: the reset memory is empty, I, pc and the stack are in bounds, and the mode is Running. -/
theorem resetMeetsTheInvariants : Obligations.ResetMeetsTheInvariants := ⟨State.Inv.reset, Session.Inv.start⟩

end Sys2Proof.Machine
end

section
/-! Canonical memories (20_memory.md R48): where the entries start is seen by reads, so equal reads make equal lists. -/

namespace Sys2Proof.Machine

variable {c : Host.Cell} {m n : Memory}

/-- What stands above the first entry of a canonical memory stands above all below it. -/
theorem Memory.above_of_lt_head {a : Nat} (h : Memory.wf (c :: m)) (ha : a < c.1) : Memory.above a (c :: m) :=
  List.forall_mem_cons.mpr ⟨ha, fun d hd => ha.trans ((Memory.wf_tail h).1 d hd)⟩

theorem Memory.read_head (c : Host.Cell) (m : Memory) : Memory.read (c :: m) c.1 = c.2 := if_pos rfl

/-- The first entry of a canonical memory is no reset content, so a memory whose entries all stand above it reads
otherwise there. -/
theorem Memory.read_head_ne (h : Memory.wf (c :: m)) (hn : Memory.above c.1 n) :
    Memory.read (c :: m) c.1 ≠ Memory.read n c.1 := by
  rw [Memory.read_head, Memory.read_of_above hn le_rfl]
  exact (h.2 c List.mem_cons_self).2

/-- The rest of a canonical memory reads as the whole does, and as reset up to the entry taken away. -/
theorem Memory.read_tail (h : Memory.wf (c :: m)) (a : Nat) :
    Memory.read m a = if a ≤ c.1 then Memory.initial a else Memory.read (c :: m) a := by
  split
  next ha => exact Memory.read_of_above (Memory.wf_tail h).1 ha
  next ha => exact (if_neg fun e => ha e.ge).symm

/-- Canonical memories that read alike are the same list: their first entries stand at one address, since the lower
one alone would be read as other than the reset content, and the rests read alike again. -/
theorem Memory.eq_of_read_eq (hm : Memory.wf m) (hn : Memory.wf n)
    (h : ∀ a, a < 4096 → Memory.read m a = Memory.read n a) : m = n := by
  induction m generalizing n with
  | nil =>
    cases n with
    | nil => rfl
    | cons d n =>
      have hd := (hn.2 d List.mem_cons_self).1
      exact absurd (h d.1 hd).symm (Memory.read_head_ne hn nofun)
  | cons c m ih =>
    have hc := (hm.2 c List.mem_cons_self).1
    cases n with
    | nil => exact absurd (h c.1 hc) (Memory.read_head_ne hm nofun)
    | cons d n =>
      rcases Nat.lt_trichotomy c.1 d.1 with hlt | heq | hgt
      · exact absurd (h c.1 hc) (Memory.read_head_ne hm (Memory.above_of_lt_head hn hlt))
      · have hbyte : c.2 = d.2 := by
          rw [← Memory.read_head c m, h c.1 hc, heq, Memory.read_head]
        obtain rfl : c = d := Prod.ext heq hbyte
        have hrest (a : Nat) (ha : a < 4096) : Memory.read m a = Memory.read n a := by
          rw [Memory.read_tail hm, Memory.read_tail hn, h a ha]
        rw [ih (Memory.wf_tail hm).2 (Memory.wf_tail hn).2 hrest]
      · have hd := (hn.2 d List.mem_cons_self).1
        exact absurd (h d.1 hd).symm (Memory.read_head_ne hn (Memory.above_of_lt_head hm hgt))

end Sys2Proof.Machine
end

section
/-! LD [I],Vx inside memory: how it ends and what its bytes read back as (42_index_memory.md R134). -/

namespace Sys2Proof.Machine

variable {s : State} {x : Nibble}

theorem exec_ldMemVx_inside (h : dataBase s + x.toNat ≤ 4095) :
    exec (.ldMemVx x) s =
      .next (s.setMem (Memory.writeBytes s.mem (dataBase s) (registersUpTo x s))).advance :=
  overSpan_inside (by omega)

theorem getElem_registersUpTo (j : Nibble) (h : j.toNat < (registersUpTo x s).length) :
    (registersUpTo x s)[j.toNat] = s.getV j := by
  simp [registersUpTo, State.getV]

/-- Each stored register reads back at its place. -/
theorem read_writeBytes_registersUpTo (hm : Memory.wf s.mem) (h : dataBase s + x.toNat ≤ 4095) {j : Nibble}
    (hj : j.toNat ≤ x.toNat) :
    Memory.read (Memory.writeBytes s.mem (dataBase s) (registersUpTo x s)) (dataBase s + j.toNat) = s.getV j := by
  have hlen := length_registersUpTo x s
  have hin : j.toNat < (registersUpTo x s).length := by omega
  rw [Memory.read_writeBytes_inside j.toNat hm (by omega) hin, getElem_registersUpTo]

end Sys2Proof.Machine
end

section
/-! The statements of 20_memory.md, settled. -/

namespace Sys2Proof.Machine

/-- Settles O58: by induction over the two lists, `Memory.eq_of_read_eq`. -/
theorem memoriesThatReadAlikeAreEqual : Obligations.MemoriesThatReadAlikeAreEqual :=
  fun _ _ hm hn h => Memory.eq_of_read_eq hm hn h

/-- Settles O59: the fetch after the store is at I[11:0], where V0 and V1 read back. -/
theorem storedBytesAreFetched : Obligations.StoredBytesAreFetched := by
  intro x s hm hpc hbase hx hspan
  refine ⟨_, exec_ldMemVx_inside hspan, ?_⟩
  have hnext : (s.setMem (Memory.writeBytes s.mem (dataBase s) (registersUpTo x s))).advance.pc.toNat = dataBase s :=
    (State.toNat_advance_pc (show s.pc.toNat < 4095 by omega)).trans hbase.symm
  have hfirst := read_writeBytes_registersUpTo hm hspan (j := 0#4) (Nat.zero_le _)
  have hsecond := read_writeBytes_registersUpTo hm hspan (j := 1#4) hx
  rw [fetch_word (by omega), hnext]
  exact congrArg Fetched.word (congrArg₂ wordOfBytes hfirst hsecond)

end Sys2Proof.Machine
end

section
/-! The encoding as one relation (30_encoding.md R60 to R69): a word decodes to an instruction iff it is the
instruction's word. R64's procedure undoes the encoder, so the encoder is injective; every word of a row is the
encoding of what the row builds from it; and the row search needs no other fact. -/

namespace Sys2Proof

variable {w : Word} {i : Instr} {op : Opcode}

/-! ### Operands and digits (30_encoding.md R62) -/

@[simp] theorem highNibble_fieldKk (w : Word) : highNibble (fieldKk w) = fieldY w := by
  apply BitVec.eq_of_toNat_eq; rw [highNibble_toNat, fieldKk_toNat, fieldY_toNat]; omega

@[simp] theorem lowNibble_fieldKk (w : Word) : lowNibble (fieldKk w) = fieldN w := by
  apply BitVec.eq_of_toNat_eq; rw [lowNibble_toNat, fieldKk_toNat, fieldN_toNat]; omega

@[simp] theorem nnnDigits_fieldNnn (w : Word) : nnnDigits (fieldNnn w) = ⟨fieldX w, fieldY w, fieldN w⟩ := by
  simp only [nnnDigits, FieldDigits.mk.injEq, ← BitVec.toNat_inj, BitVec.extractLsb'_toNat,
    Nat.shiftRight_eq_div_pow, fieldNnn_toNat, fieldX_toNat, fieldY_toNat, fieldN_toNat]
  omega

@[simp] theorem fieldKk_wordOfNibbles (m x y n : Nibble) : fieldKk (wordOfNibbles m x y n) = y ++ n := by
  apply BitVec.eq_of_toNat_eq; rw [fieldKk_toNat, wordOfNibbles_toNat, append_toNat]; omega

@[simp] theorem highNibble_append_lowNibble (kk : Byte) : highNibble kk ++ lowNibble kk = kk := by
  apply BitVec.eq_of_toNat_eq; rw [append_toNat, highNibble_toNat, lowNibble_toNat]; omega

@[simp] theorem fieldNnn_wordOfNibbles_nnnDigits (m : Nibble) (nnn : Addr) :
    fieldNnn (wordOfNibbles m (nnnDigits nnn).d2 (nnnDigits nnn).d1 (nnnDigits nnn).d0) = nnn := by
  apply BitVec.eq_of_toNat_eq
  simp only [fieldNnn_toNat, wordOfNibbles_toNat, nnnDigits, BitVec.extractLsb'_toNat, Nat.shiftRight_eq_div_pow]
  omega

theorem wordOfNibbles_inj {m x y n m' x' y' n' : Nibble} :
    wordOfNibbles m x y n = wordOfNibbles m' x' y' n' ↔ m = m' ∧ x = x' ∧ y = y' ∧ n = n' := by
  constructor
  · intro h
    exact ⟨by simpa using congrArg fieldMajor h, by simpa using congrArg fieldX h,
      by simpa using congrArg fieldY h, by simpa using congrArg fieldN h⟩
  · rintro ⟨rfl, rfl, rfl, rfl⟩
    rfl

/-! ### Patterns -/

/-- The word with the pattern's fixed digits put in. -/
def Pattern.fill (p : Pattern) (w : Word) : Word :=
  wordOfNibbles (p.d3.getD (fieldMajor w)) (p.d2.getD (fieldX w)) (p.d1.getD (fieldY w)) (p.d0.getD (fieldN w))

theorem digitFits_iff_getD {o : Option Nibble} {d : Nibble} : digitFits o d = true ↔ o.getD d = d := by
  cases o <;> simp [digitFits]

theorem Pattern.fits_iff_fill {p : Pattern} : p.fits w = true ↔ p.fill w = w := by
  conv_rhs => rhs; rw [← wordOfNibbles_fields w]
  simp only [Pattern.fits, Pattern.fill, Bool.and_eq_true, digitFits_iff_getD, wordOfNibbles_inj, and_assoc]

/-! ### The encoder -/

/-- A row's instruction, built from any word, encodes to that word with the row's fixed digits: the operands and the
fixed digits are all of the word. -/
theorem encode_build (op : Opcode) (w : Word) : encode (op.build w) = op.pattern.fill w := by
  cases op <;> simp [encode, Opcode.build, Instr.opcode, Opcode.pattern, Instr.fields, Pattern.fill]

/-- What a row builds from a word that has the row's fixed digits encodes to that word. -/
theorem encode_build_of_fits (h : op.pattern.fits w = true) : encode (op.build w) = w :=
  (encode_build op w).trans (Pattern.fits_iff_fill.mp h)

theorem fits_encode (i : Instr) : i.opcode.pattern.fits (encode i) = true := Laws.EncodingFits.filled _ _ _ _ _

theorem opcode_build (op : Opcode) (w : Word) : (op.build w).opcode = op := by cases op <;> rfl

/-- R64's procedure gives an instruction's word its instruction back: the cases of the procedure told apart by the
fixed digits of the row. -/
theorem decodeProcedure_encode (i : Instr) : decodeProcedure (encode i) = some i := by
  cases i with
  | cls | ret => rfl
  | _ => simp [encode, Instr.opcode, Opcode.pattern, Instr.fields, decodeProcedure, decodeProcedure8,
      decodeProcedureE, decodeProcedureF]

theorem encode_injective : Function.Injective encode := fun i j h =>
  Option.some.inj ((decodeProcedure_encode i).symm.trans ((congrArg _ h).trans (decodeProcedure_encode j)))

/-! ### The row search -/

theorem mem_opcodes (op : Opcode) : op ∈ opcodes := by cases op <;> decide

theorem encode_of_decodeWord (h : decodeWord w = some i) : encode i = w := by
  obtain ⟨op, hfind, rfl⟩ := Option.map_eq_some_iff.mp h
  exact encode_build_of_fits (List.find?_some (p := fun op : Opcode => op.pattern.fits w) hfind)

/-- The row of `i` fits its word, so the search finds a row; what that row builds has the same word, so it is `i`. -/
@[simp] theorem decodeWord_encode (i : Instr) : decodeWord (encode i) = some i := by
  have hrow : (decodeWord (encode i)).isSome := by
    rw [decodeWord, Option.isSome_map, List.find?_isSome]
    exact ⟨i.opcode, mem_opcodes _, fits_encode i⟩
  obtain ⟨j, hj⟩ := Option.isSome_iff_exists.mp hrow
  exact hj.trans (congrArg some (encode_injective (encode_of_decodeWord hj)))

theorem decodeWord_eq_some_iff : decodeWord w = some i ↔ encode i = w :=
  ⟨encode_of_decodeWord, fun h => h ▸ decodeWord_encode i⟩

/-- A word is of a row iff it has the row's fixed digits. -/
theorem fits_iff_decodeWord : op.pattern.fits w = true ↔ ∃ i, decodeWord w = some i ∧ i.opcode = op := by
  constructor
  · intro h
    exact ⟨op.build w, decodeWord_eq_some_iff.mpr (encode_build_of_fits h), opcode_build op w⟩
  · rintro ⟨i, hi, rfl⟩
    exact encode_of_decodeWord hi ▸ fits_encode i

theorem decodeBytes_encodeBytes_append (i : Instr) (rest : List Byte) :
    decodeBytes (encodeBytes i ++ rest) = .instr i rest := by
  simp [encodeBytes, bytesOfWord, decodeBytes, wordOfBytes_bytesOfWord]

end Sys2Proof
end

section
/-! R64's procedure, written out by majors, is the row search: both find the one instruction whose word is given. -/

namespace Sys2Proof

variable {w : Word} {i : Instr}

/-- An instruction's word is `w` if it has the first and the last digit of `w`, and x and y from `w`. -/
theorem encode_eq_of_fieldN {m n : Nibble} (hm : fieldMajor w = m) (hn : fieldN w = n)
    (hi : encode i = wordOfNibbles m (fieldX w) (fieldY w) n) : encode i = w := by
  subst hm hn
  exact hi.trans (wordOfNibbles_fields w)

/-- An instruction's word is `w` if it has the first digit and the low byte of `w`, and x from `w`. -/
theorem encode_eq_of_fieldKk {m : Nibble} {kk : Byte} (hm : fieldMajor w = m) (hk : fieldKk w = kk)
    (hi : encode i = wordOfNibbles m (fieldX w) (highNibble kk) (lowNibble kk)) : encode i = w := by
  subst hk
  rw [highNibble_fieldKk, lowNibble_fieldKk] at hi
  exact encode_eq_of_fieldN hm rfl hi

theorem encode_of_decodeProcedure8 (hm : fieldMajor w = 0x8#4) (h : decodeProcedure8 w = some i) : encode i = w := by
  unfold decodeProcedure8 at h
  split at h <;> cases h
  all_goals
    rename_i hn
    exact encode_eq_of_fieldN hm hn rfl

theorem encode_of_decodeProcedureE (hm : fieldMajor w = 0xE#4) (h : decodeProcedureE w = some i) : encode i = w := by
  unfold decodeProcedureE at h
  split at h <;> cases h
  all_goals
    rename_i hk
    exact encode_eq_of_fieldKk hm hk rfl

theorem encode_of_decodeProcedureF (hm : fieldMajor w = 0xF#4) (h : decodeProcedureF w = some i) : encode i = w := by
  unfold decodeProcedureF at h
  split at h <;> cases h
  all_goals
    rename_i hk
    exact encode_eq_of_fieldKk hm hk rfl

theorem encode_of_decodeProcedure (h : decodeProcedure w = some i) : encode i = w := by
  unfold decodeProcedure at h
  split at h
  case h_1 => -- major 0: the two whole words
    split_ifs at h with hcls hret <;> cases h
    · exact hcls.symm
    · exact hret.symm
  case h_6 hm | h_10 hm => -- majors 5 and 9: the last digit is 0
    split_ifs at h with hn
    cases h
    exact encode_eq_of_fieldN hm hn rfl
  case h_9 hm => exact encode_of_decodeProcedure8 hm h
  case h_15 hm => exact encode_of_decodeProcedureE hm h
  case h_16 => -- the one major left is F
    simp only [imp_false] at *
    exact encode_of_decodeProcedureF (by bv_omega) h
  all_goals -- every other major has one row, and operands in the other digits
    cases h
    exact encode_eq_of_fieldN ‹fieldMajor w = _› rfl (by simp [encode, Instr.opcode, Opcode.pattern, Instr.fields])

theorem decodeProcedure_eq_some_iff : decodeProcedure w = some i ↔ encode i = w :=
  ⟨encode_of_decodeProcedure, fun h => h ▸ decodeProcedure_encode i⟩

end Sys2Proof
end

section
/-! R66's mask and match columns, digit by digit. -/

namespace Sys2Proof

variable {w : Word}

/-- Words meet bit by bit, hence digit by digit. -/
theorem wordOfNibbles_and (m x y n m' x' y' n' : Nibble) :
    wordOfNibbles m x y n &&& wordOfNibbles m' x' y' n' =
      wordOfNibbles (m &&& m') (x &&& x') (y &&& y') (n &&& n') := by
  simp only [wordOfNibbles]
  exact BitVec.and_append.trans (congrArg (· ++ (n &&& n')) (BitVec.and_append.trans
    (congrArg (· ++ (y &&& y')) BitVec.and_append)))

/-- A digit of R66's columns: ones in the mask where the pattern fixes it, 0 in both columns where it does not. -/
theorem digitFits_iff_and {o : Option Nibble} {d : Nibble} :
    digitFits o d = true ↔ d &&& (if o.isSome then 0xF else 0) = o.getD 0 := by
  cases o with
  | none => simp [digitFits]
  | some v =>
    have hd : d &&& 0xF#4 = d := BitVec.and_allOnes
    rw [digitFits, beq_iff_eq, eq_comm]
    exact iff_of_eq (congrArg (· = v) hd.symm)

theorem Pattern.fits_iff_and_mask {p : Pattern} : p.fits w = true ↔ w &&& p.mask = p.value := by
  conv_rhs => rw [← wordOfNibbles_fields w]
  simp only [Pattern.fits, Pattern.mask, Pattern.value, Bool.and_eq_true, digitFits_iff_and, wordOfNibbles_and,
    wordOfNibbles_inj, and_assoc]

end Sys2Proof
end

section
/-! The statements of 30_encoding.md, settled. -/

namespace Sys2Proof

/-- Settles O2: the row of an instruction fits its word, and R64's procedure shows the encoder injective. -/
theorem decodeOfEncodeIsTheInstruction : Obligations.DecodeOfEncodeIsTheInstruction :=
  fun i => ⟨decodeWord_encode i, decodeBytes_encodeBytes_append i⟩

/-- Settles O3: what a row builds from a word has that word's operands and the row's digits. -/
theorem encodeOfDecodeIsTheWord : Obligations.EncodeOfDecodeIsTheWord := fun _ _ => encode_of_decodeWord

/-- Settles O4: either decoder answers `i` iff the word is that of `i`. -/
theorem decoderFollowsTheProcedure : Obligations.DecoderFollowsTheProcedure := fun _ =>
  Option.ext fun _ => decodeWord_eq_some_iff.trans decodeProcedure_eq_some_iff.symm

/-- Settles O5, by the rows of each major. -/
theorem illegalWordsAreExactlyThoseListed : Obligations.IllegalWordsAreExactlyThoseListed :=
  fun _ => Machine.decodeWord_eq_none_iff

/-- Settles O6: mask and match say digit by digit that the row's pattern fits. -/
theorem maskAndMatchSelectOneRow : Obligations.MaskAndMatchSelectOneRow := fun _ _ =>
  Pattern.fits_iff_and_mask.symm.trans fits_iff_decodeWord

/-- Settles O1, word by word through the opcode table. -/
theorem wordsOfEveryFamilyDecode : Obligations.WordsOfEveryFamilyDecode := by
  unfold Obligations.WordsOfEveryFamilyDecode
  decide

end Sys2Proof
end

section
/-! Where control goes (40_step_and_control.md R83, R96): an instruction takes a fault or completes, its pc as `pcLaw`
says; what that makes of pc as a number. -/

namespace Sys2Proof.Machine

variable {s t : State} {i : Instr}

/-! ### Targets and skips -/

theorem toNat_zeroExtend_addr (nnn : Addr) : (nnn.zeroExtend 16).toNat = nnn.toNat := by
  rw [BitVec.toNat_setWidth]
  exact Nat.mod_eq_of_lt (nnn.isLt.trans (by decide))

/-- JP V0's target is the sum itself: it fits in 16 bits. -/
theorem toNat_addr_add_byte (nnn : Addr) (b : Byte) :
    (nnn.zeroExtend 16 + b.zeroExtend 16).toNat = nnn.toNat + b.toNat := by
  rw [BitVec.toNat_add, BitVec.toNat_setWidth, BitVec.toNat_setWidth]
  have := nnn.isLt
  have := b.isLt
  omega

@[simp] theorem State.skipIf_pc (b : Bool) (s : State) :
    (s.skipIf b).pc = if b then s.pc + 4#16 else s.pc + 2#16 := by
  cases b <;> rfl

@[simp] theorem State.skipIf_mode (b : Bool) (s : State) : (s.skipIf b).mode = s.mode := by
  cases b <;> rfl

theorem skipLaw_skipIf {b : Bool} {c : Prop} [Decidable c] (h : b = true ↔ c) : skipLaw c s (s.skipIf b) := by
  simp only [skipLaw, State.skipIf_pc, h]

/-! ### The pc law (R83) -/

/-- The instruction completes: pc goes where its law says, and the mode is as it was or a key wait. -/
def completes (i : Instr) (s t : State) : Prop :=
  pcLaw i s t ∧ (t.mode = s.mode ∨ ∃ x, t.mode = .waitingForKey x)

/-- Completion is no fault: a Running machine is then Running or waiting. -/
theorem completes.mode_ne_halted (h : completes i s t) (hm : s.mode = .running) (f : Fault) (a : Word) :
    t.mode ≠ .halted f a := by
  obtain ⟨-, e | ⟨x, e⟩⟩ := h <;> simp [e, hm]

/-- 40_step_and_control.md R83: an instruction takes a fault, which leaves all but the mode, or completes. -/
theorem exec_raises_or_completes (h : exec i s = .next t) : (∃ f a, t = s.raise f a) ∨ completes i s t := by
  cases i with
  | call nnn =>
    rcases exec_call_cases nnn s with ⟨_, e⟩ | ⟨_, e⟩ <;> cases e.symm.trans h
    · exact .inr ⟨toNat_zeroExtend_addr nnn, .inl rfl⟩
    · exact .inl ⟨_, _, rfl⟩
  | ret =>
    rcases exec_ret_cases s with ⟨hsp, e⟩ | ⟨_, e⟩ <;> cases e.symm.trans h
    · exact .inr ⟨⟨hsp, rfl⟩, .inl rfl⟩
    · exact .inl ⟨_, _, rfl⟩
  | drw | ldB | ldMemVx | ldVxMem =>
    rcases overSpan_cases h with ⟨_, rfl⟩ | ⟨_, rfl⟩
    · exact .inr ⟨rfl, .inl rfl⟩
    · exact .inl ⟨_, _, rfl⟩
  | jp nnn => cases h; exact .inr ⟨toNat_zeroExtend_addr nnn, .inl rfl⟩
  | jpV0 nnn => cases h; exact .inr ⟨toNat_addr_add_byte nnn _, .inl rfl⟩
  | seImm | sneImm | seReg | sneReg | skp | sknp =>
    cases h
    exact .inr ⟨skipLaw_skipIf (by simp), .inl (State.skipIf_mode _ s)⟩
  | ldVxK x => cases h; exact .inr ⟨rfl, .inr ⟨x, rfl⟩⟩
  | _ => cases h; exact .inr ⟨rfl, .inl rfl⟩

/-! ### What the law makes of pc -/

theorem State.advance_pc_le (hpc : s.pc.toNat ≤ 4094) : s.advance.pc.toNat ≤ 4098 := by
  rw [State.toNat_advance_pc (by omega)]
  omega

theorem State.skip_pc_le (hpc : s.pc.toNat ≤ 4094) : s.skip.pc.toNat ≤ 4098 := by
  rw [State.toNat_skip_pc (by omega)]
  omega

theorem skipLaw.pc_le {c : Prop} [Decidable c] (h : skipLaw c s t) (hpc : s.pc.toNat ≤ 4094) : t.pc.toNat ≤ 4098 := by
  rw [h]
  split
  · exact State.skip_pc_le hpc
  · exact State.advance_pc_le hpc

/-- 40_step_and_control.md R96: only JP V0,nnn takes pc above 4098. -/
theorem pcLaw.pc_le (h : pcLaw i s t) (hpc : s.pc.toNat ≤ 4094) (hs : ∀ j : Fin 16, s.stk[j].toNat ≤ 4096) :
    t.pc.toNat ≤ 4098 ∨ t.pc.toNat ≤ 0x10FE ∧ ∃ nnn, i = .jpV0 nnn := by
  cases i with
  | jpV0 nnn =>
    have := nnn.isLt
    have := (s.getV 0#4).isLt
    simp only [pcLaw] at h
    exact .inr ⟨by omega, nnn, rfl⟩
  | jp nnn | call nnn =>
    have := nnn.isLt
    simp only [pcLaw] at h
    exact .inl (by omega)
  | ret =>
    obtain ⟨hsp, e⟩ := h
    have := hs ⟨s.sp.val - 1, by omega⟩
    rw [e]
    exact .inl (this.trans (by decide))
  | seImm | sneImm | seReg | sneReg | skp | sknp => exact .inl (skipLaw.pc_le h hpc)
  | ldVxK =>
    have stays : t.pc = s.pc := h
    exact .inl (stays ▸ hpc.trans (by decide))
  | _ =>
    have advances : t.pc = s.advance.pc := h
    exact .inl (advances ▸ State.advance_pc_le hpc)

/-! ### The stack -/

/-- R94: the entry CALL pushes is the one RET pops. -/
theorem State.top_of_push {u : State} {w : Word} {h : s.sp.val < 16} (hsp : u.sp = (s.push w h).sp)
    (hstk : u.stk = (s.push w h).stk) (hu : 0 < u.sp.val) : u.top hu = w := by
  simp [State.top, hsp, hstk]

end Sys2Proof.Machine
end

section
/-! The fetch and the words of the control instructions (40_step_and_control.md R81, R86 to R93). -/

namespace Sys2Proof.Machine

variable {s t : State} {i : Instr}

theorem haltedFrom_raise (f : Fault) (a : Word) (s : State) : haltedFrom f a s (s.raise f a) :=
  ⟨rfl, (unchangedBut.refl _ s).raise rfl⟩

theorem step_of_fetch_outOfBounds {a : Word} (hm : s.mode = .running) (hf : fetch s = .outOfBounds a) :
    step s = .next (s.raise .memoryOutOfBounds a) := by
  simp only [step, hm, hf]

theorem step_of_executes (h : executes s i) : step s = exec i s := by
  obtain ⟨hm, w, hf, hw⟩ := h
  simp only [step, hm, hf, hw]

/-- A skip writes pc alone: the shape of R90 to R93. -/
theorem exists_skipIf {b : Bool} {w : Word} (hw : (if b then s.pc + 4#16 else s.pc + 2#16) = w) :
    ∃ t, (.next (s.skipIf b) : Host.Outcome State Fault Refusal) = .next t ∧ t.pc = w ∧
      unchangedBut (fun p => p = .pc) s t :=
  ⟨_, rfl, (State.skipIf_pc b s).trans hw, (unchangedBut.refl _ s).skipIf rfl⟩

end Sys2Proof.Machine

namespace Sys2Proof

theorem wordOfBytes_high (a b : Byte) : (wordOfBytes a b).extractLsb' 8 8 = a := by
  apply BitVec.eq_of_toNat_eq
  rw [BitVec.extractLsb'_toNat, Nat.shiftRight_eq_div_pow, wordOfBytes_toNat]
  omega

theorem wordOfBytes_low (a b : Byte) : (wordOfBytes a b).extractLsb' 0 8 = b := by
  apply BitVec.eq_of_toNat_eq
  rw [BitVec.extractLsb'_toNat, Nat.shiftRight_eq_div_pow, wordOfBytes_toNat]
  omega

/-- Decoding letter by letter: how a word with a given first digit decodes is R64's line for it. -/
theorem decodeWord_eq_decodeProcedure (w : Word) : decodeWord w = decodeProcedure w := decoderFollowsTheProcedure w

end Sys2Proof
end

section
/-! What a step reports, and the end of a run (40_step_and_control.md R85, R97). -/

namespace Sys2Proof.Machine

variable {s t : State} {i : Instr}

/-! ### The result (R85) -/

theorem State.stepResult_eq_done : t.stepResult = .done ↔ t.mode = .running := by
  unfold State.stepResult
  cases t.mode <;> simp

theorem State.stepResult_eq_waiting : t.stepResult = .waiting ↔ ∃ x, t.mode = .waitingForKey x := by
  unfold State.stepResult
  cases t.mode <;> simp

theorem State.stepResult_eq_fault {f : Fault} {a : Word} : t.stepResult = .fault f a ↔ t.mode = .halted f a := by
  unfold State.stepResult
  cases t.mode <;> simp

theorem apply_step {m : Session} (h : step m.state = .next t) :
    HostOp.step.apply m = .next (⟨t, true⟩, .step t.stepResult) := by
  simp only [HostOp.apply, h]

/-! ### Jumps to their own address (R97) -/

theorem exec_of_isOwnJump (h : isOwnJump i s = true) : exec i s = .next s := by
  cases i with
  | jp nnn => exact congrArg (fun w => Host.Outcome.next (s.setPc w)) (beq_iff_eq.mp h)
  | jpV0 nnn => exact congrArg (fun w => Host.Outcome.next (s.setPc w)) (beq_iff_eq.mp h)
  | _ => cases h

theorem pc_ne_pc_add {k : Word} (hk : k ≠ 0#16) (pc : Word) : pc ≠ pc + k :=
  fun h => hk (by simpa using h.symm)

theorem State.ne_raise (hm : s.mode = .running) {f : Fault} {a : Word} : s ≠ s.raise f a :=
  fun h => nomatch hm.symm.trans (congrArg State.mode h)

theorem not_skipLaw_self {c : Prop} [Decidable c] : ¬ skipLaw c s s := by
  rw [skipLaw]
  split <;> exact pc_ne_pc_add (by decide) s.pc

/-- A Running machine that an instruction leaves as it is was at a jump to its own address: every other instruction
moves pc, SP or the mode. -/
theorem isOwnJump_of_exec_eq_self (hm : s.mode = .running) (h : exec i s = .next s) : isOwnJump i s = true := by
  have law : pcLaw i s s := by
    rcases exec_raises_or_completes h with ⟨f, a, e⟩ | ⟨law, -⟩
    · exact absurd e (State.ne_raise hm)
    · exact law
  cases i with
  | jp nnn => exact beq_iff_eq.mpr (congrArg State.pc (Host.Outcome.next.inj h))
  | jpV0 nnn => exact beq_iff_eq.mpr (congrArg State.pc (Host.Outcome.next.inj h))
  | call nnn =>
    rcases exec_call_cases nnn s with ⟨hsp, e⟩ | ⟨-, e⟩ <;> have e := Host.Outcome.next.inj (h.symm.trans e)
    · have pushed : s.sp.val = s.sp.val + 1 := congrArg (fun u : State => u.sp.val) e
      omega
    · exact absurd e (State.ne_raise hm)
  | ret =>
    rcases exec_ret_cases s with ⟨hsp, e⟩ | ⟨-, e⟩ <;> have e := Host.Outcome.next.inj (h.symm.trans e)
    · have popped : s.sp.val = s.sp.val - 1 := congrArg (fun u : State => u.sp.val) e
      omega
    · exact absurd e (State.ne_raise hm)
  | ldVxK x => exact nomatch hm.symm.trans (congrArg State.mode (Host.Outcome.next.inj h)).symm
  | seImm | sneImm | seReg | sneReg | skp | sknp => exact absurd law not_skipLaw_self
  | _ => exact absurd law (pc_ne_pc_add (by decide) s.pc)

/-! ### The end of a run -/

theorem State.runEnd_of_waiting {x : Nibble} (h : s.mode = .waitingForKey x) : s.runEnd = none := by
  simp only [State.runEnd, h]

theorem State.runEnd_eq_finished_iff_executes :
    s.runEnd = some .finished ↔ ∃ i, executes s i ∧ isOwnJump i s = true := by
  rw [State.runEnd_eq_finished]
  constructor
  · rintro ⟨hm, w, i, hf, hw, hj⟩
    exact ⟨i, ⟨hm, w, hf, hw⟩, hj⟩
  · rintro ⟨i, ⟨hm, w, hf, hw⟩, hj⟩
    exact ⟨hm, w, i, hf, hw, hj⟩

theorem step_eq_self_of_runEnd {e : RunEnd} (h : s.runEnd = some e) : step s = .next s := by
  cases e with
  | finished =>
    obtain ⟨i, hi, hj⟩ := State.runEnd_eq_finished_iff_executes.mp h
    exact (step_of_executes hi).trans (exec_of_isOwnJump hj)
  | fault f a => exact step_eq_self_of_halted (State.runEnd_eq_fault.mp h)

theorem runEnd_of_step_eq_self (hm : s.mode = .running) (h : step s = .next s) : s.runEnd = some .finished := by
  rcases step_cases h with ⟨f, a, e, -⟩ | ⟨x, e, -⟩ | ⟨-, f, a, -, e⟩ | ⟨i, hi, he⟩
  · exact nomatch hm.symm.trans e
  · exact nomatch hm.symm.trans e
  · exact absurd e (State.ne_raise hm)
  · exact State.runEnd_eq_finished_iff_executes.mpr ⟨i, hi, isOwnJump_of_exec_eq_self hm he⟩

/-- No operation of the host but reset takes a machine that has been stepped out of its end. -/
theorem runEnd_apply {o : HostOp} {m m' : Session} {r : OpResult} {e : RunEnd} (hstep : m.stepped = true)
    (ho : o ≠ .reset) (he : m.state.runEnd = some e) (h : o.apply m = .next (m', r)) : m'.state.runEnd = some e := by
  cases o with
  | reset => exact absurd rfl ho
  | load bytes =>
    rw [HostOp.apply, if_pos hstep] at h
    cases h
  | step =>
    cases (apply_step (step_eq_self_of_runEnd he)).symm.trans h
    exact he
  | setPressed k =>
    cases h
    rcases State.setPressed_cases k m.state with ⟨-, e'⟩ | ⟨-, e'⟩ <;> simp only [e']
    · exact he
    · exact (State.runEnd_congr rfl rfl rfl rfl).trans he
  | tick | setReleased | clearDirty =>
    cases h
    exact (State.runEnd_congr rfl rfl rfl rfl).trans he
  | read =>
    cases h
    exact he

end Sys2Proof.Machine
end

section
/-! The statements of 40_step_and_control.md, settled. -/

namespace Sys2Proof.Machine

/-- Settles O11: every arm of `exec` answers, so every case of the step does. -/
theorem everyStepAnswersANextState : Obligations.EveryStepAnswersANextState :=
  ⟨exists_step_eq_next, exists_exec_eq_next⟩

/-- Settles O12: the step's cases, and the ends of the instruction it executes. -/
theorem modeTransitionsAreThoseListed : Obligations.ModeTransitionsAreThoseListed := by
  refine ⟨fun s t h => ?_, fun s k => ⟨rfl, State.setPressed_mode k s, rfl, rfl⟩⟩
  rcases step_cases h with ⟨f, a, -, rfl⟩ | ⟨x, hm, rfl⟩ | ⟨hm, f, a, hf, rfl⟩ | ⟨i, hi, he⟩
  · exact .inl rfl
  · rcases State.stepWaiting_cases x s with ⟨-, e⟩ | ⟨hlkv, e⟩ <;> rw [e]
    · exact .inl rfl
    · exact .inr (.inr (.inl ⟨⟨x, hm⟩, hlkv, rfl⟩))
  · exact .inr (.inr (.inr ⟨hm, f, a, hf, rfl⟩))
  · have ⟨hm, w, hw, hd⟩ := hi
    rcases exec_ends hi he with ⟨f, a, hf, rfl⟩ | ⟨x, rfl, rfl⟩ | e
    · exact .inr (.inr (.inr ⟨hm, f, a, hf, rfl⟩))
    · exact .inr (.inl ⟨hm, w, x, hw, hd, rfl⟩)
    · exact .inl e

/-- Settles O21: an instruction takes a fault or completes. -/
theorem programCounterLaw : Obligations.ProgramCounterLaw := by
  refine ⟨fun i s hm => ?_, fun pc hpc => ⟨?_, ?_⟩⟩
  · obtain ⟨t, h⟩ := exists_exec_eq_next i s
    refine ⟨t, h, ?_⟩
    rcases exec_raises_or_completes h with ⟨f, a, rfl⟩ | hc
    · exact .inl ⟨⟨f, a, rfl⟩, rfl⟩
    · exact .inr ⟨hc.mode_ne_halted hm, hc.1⟩
  · exact BitVec.toNat_add_of_lt (show pc.toNat + 2 < 65536 by omega)
  · exact BitVec.toNat_add_of_lt (show pc.toNat + 4 < 65536 by omega)

/-- Settles O22: a fault leaves pc, and the pc law bounds it where the instruction completes. -/
theorem stepKeepsThePcInRange : Obligations.StepKeepsThePcInRange := by
  intro s t hs hm hpc h
  have stay : s.pc.toNat ≤ 4098 := by omega
  rcases step_cases h with ⟨f, a, -, rfl⟩ | ⟨x, e, -⟩ | ⟨-, f, a, -, rfl⟩ | ⟨i, ⟨-, w, hw, hd⟩, he⟩
  · exact .inl stay
  · exact nomatch hm.symm.trans e
  · exact .inl stay
  · rcases exec_raises_or_completes he with ⟨f, a, rfl⟩ | ⟨law, -⟩
    · exact .inl stay
    · refine (law.pc_le hpc hs).imp_right ?_
      rintro ⟨hle, nnn, rfl⟩
      exact ⟨hle, w, nnn, hw, hd⟩

/-- Settles O23: RET finds the pushed entry at the top. -/
theorem returnUndoesTheCall : Obligations.ReturnUndoesTheCall := by
  intro nnn s t u hsp h husp hustk
  cases (exec_call_of_lt hsp).symm.trans h
  have hval : u.sp.val = s.sp.val + 1 := congrArg Fin.val husp
  have hu : 0 < u.sp.val := by omega
  exact ⟨_, exec_ret_of_pos hu, State.top_of_push (h := hsp) husp hustk hu, Fin.ext (by simp [hval]), rfl⟩

/-- Settles O60: an end is a fixed point of the step, every fixed point in mode Running is one, and it is told by parts
of the state no host operation but reset and load writes. -/
theorem endOfARunIsFinal : Obligations.EndOfARunIsFinal :=
  ⟨fun _ _ => step_eq_self_of_runEnd, fun _ hm => ⟨runEnd_of_step_eq_self hm, step_eq_self_of_runEnd⟩,
    fun _ _ _ => State.runEnd_eq_fault, fun _ _ => State.runEnd_of_waiting,
    fun _ _ _ _ _ hstep ho he h => runEnd_apply hstep ho he h⟩

/-- Settles O7: what a machine executes its step runs. -/
theorem stepRunsTheDecodedInstruction : Obligations.StepRunsTheDecodedInstruction :=
  fun _ _ hm hpc hd => step_of_executes ⟨hm, _, fetch_word (by omega), hd⟩

/-- Settles O8: the three outcomes of the fetch. -/
theorem fetchReadsTwoBytesOrHalts : Obligations.FetchReadsTwoBytesOrHalts := by
  refine ⟨fun s hm hpc => ?_, fun s hm hpc => ?_, fun s hpc => ?_⟩
  · have hf : fetch s = .outOfBounds s.pc := if_pos hpc
    exact ⟨_, step_of_fetch_outOfBounds hm hf, haltedFrom_raise _ _ s⟩
  · have hf : fetch s = .outOfBounds 4096#16 := by simp [fetch, hpc]
    exact ⟨_, step_of_fetch_outOfBounds hm hf, haltedFrom_raise _ _ s⟩
  · exact ⟨_, fetch_word hpc, wordOfBytes_high _ _, wordOfBytes_low _ _⟩

/-- Settles O13: the result is read from the mode. -/
theorem stepReportsDoneWaitingOrFault : Obligations.StepReportsDoneWaitingOrFault := by
  refine ⟨fun m => ?_, fun x s => ⟨_, rfl, rfl⟩⟩
  obtain ⟨t, h⟩ := exists_step_eq_next m.state
  exact ⟨t, t.stepResult, apply_step h, h, State.stepResult_eq_done, State.stepResult_eq_waiting,
    fun _ _ => State.stepResult_eq_fault⟩

/-- Settles O15: an address taken to 16 bits keeps its value. -/
theorem jumpSetsThePc : Obligations.JumpSetsThePc := by
  refine fun nnn s => ⟨?_, _, rfl, toNat_zeroExtend_addr nnn, (unchangedBut.refl _ s).setPc rfl⟩
  simp [decodeWord_eq_decodeProcedure, decodeProcedure]

/-- Settles O16: the two ends of a CALL. -/
theorem callPushesTheReturnAddress : Obligations.CallPushesTheReturnAddress := by
  refine fun nnn s => ⟨?_, fun h => ?_, fun h => ?_⟩
  · simp [decodeWord_eq_decodeProcedure, decodeProcedure]
  · exact ⟨_, exec_call_of_lt h, Vector.getElem_set_self h, rfl, toNat_zeroExtend_addr nnn,
      ((unchangedBut.refl _ s).push (.inr (.inl rfl)) (.inr (.inr rfl))).setPc (.inl rfl)⟩
  · exact ⟨_, exec_call_of_full (by omega), haltedFrom_raise _ _ s⟩

/-- Settles O17: the two ends of a RET. -/
theorem returnPopsTheStack : Obligations.ReturnPopsTheStack := by
  refine fun s => ⟨decodeWord_encode .ret, fun h => ?_, fun h => ?_⟩
  · exact ⟨_, exec_ret_of_pos h, rfl, rfl, ((unchangedBut.refl _ s).pop (.inr rfl)).setPc (.inl rfl)⟩
  · exact ⟨_, exec_ret_of_empty (by omega), haltedFrom_raise _ _ s⟩

/-- Settles O18: the sum fits in 16 bits. -/
theorem jumpWithOffsetAddsV0 : Obligations.JumpWithOffsetAddsV0 := by
  refine fun nnn s => ⟨?_, _, rfl, toNat_addr_add_byte nnn _, (unchangedBut.refl _ s).setPc rfl⟩
  simp [decodeWord_eq_decodeProcedure, decodeProcedure]

/-- Settles O19: both are skips, on Vx = kk and on its negation. -/
theorem skipsOnAnImmediate : Obligations.SkipsOnAnImmediate := by
  refine fun x kk s => ⟨?_, ?_, exists_skipIf (by simp), exists_skipIf (by simp)⟩ <;>
    simp [decodeWord_eq_decodeProcedure, decodeProcedure]

/-- Settles O20: both are skips, on Vx = Vy and on its negation; R64 looks at the fourth digit of majors 5 and 9. -/
theorem skipsOnARegister : Obligations.SkipsOnARegister := by
  refine fun x y n s => ⟨?_, ?_, exists_skipIf (by simp), exists_skipIf (by simp)⟩ <;>
    simp [decodeWord_eq_decodeProcedure, decodeProcedure]

end Sys2Proof.Machine
end

section
/-! Register load, arithmetic, logic and shifts (41_alu.md R110 to R123): what Vx and VF hold after the write of a
result, or of a result and its flag, and the results and flags as numbers. -/

namespace Sys2Proof.Machine

variable {s : State} {x : Nibble} {b : Byte} {c : Bool}

/-! ### The writes (R122) -/

theorem State.getV_setResultAndFlag_result (h : x ≠ 0xF#4) : (s.setResultAndFlag x b c).getV x = b := by
  rw [State.getV_setResultAndFlag, if_neg h, if_pos rfl]

theorem State.getV_setResultAndFlag_flag : (s.setResultAndFlag x b c).getV 0xF#4 = flagByte c := by
  rw [State.getV_setResultAndFlag, if_pos rfl]

theorem unchangedBut_setV_advance : unchangedBut (fun p => p = .reg x ∨ p = .pc) s (s.setV x b).advance :=
  ((unchangedBut.refl _ s).setV (.inl rfl)).advance (.inr rfl)

theorem unchangedBut_setResultAndFlag_advance :
    unchangedBut (fun p => p = .reg x ∨ p = .reg 0xF#4 ∨ p = .pc) s (s.setResultAndFlag x b c).advance :=
  ((unchangedBut.refl _ s).setResultAndFlag (.inl rfl) (.inr (.inl rfl))).advance (.inr (.inr rfl))

/-! ### Results and flags as numbers (R121) -/

/-- The 256 added before the subtraction keeps it in the natural numbers and is lost in the reduction. -/
theorem difference_toNat (a b : Byte) : ((difference a b).toNat : Int) = (a.toNat - b.toNat : Int) % 256 := by
  rw [difference, BitVec.toNat_ofNat]
  have := b.isLt
  omega

theorem flagByte_decide (p : Prop) [Decidable p] : flagByte (decide p) = if p then 1#8 else 0#8 := by
  simp only [flagByte, decide_eq_true_eq]

theorem flagByte_toNat (c : Bool) : (flagByte c).toNat = c.toNat := by
  cases c <;> rfl

theorem lowBit_toNat (a : Byte) : (lowBit a).toNat = a.toNat % 2 := by
  rw [lowBit, BitVec.getLsbD, Nat.toNat_testBit, Nat.pow_zero, Nat.div_one]

/-- Bit 7 is the whole quotient by 128: no byte has a bit above it. -/
theorem highBit_toNat (a : Byte) : (highBit a).toNat = a.toNat / 128 := by
  rw [highBit, BitVec.getLsbD, Nat.toNat_testBit]
  have := a.isLt
  omega

end Sys2Proof.Machine
end

section
/-! The statements of 41_alu.md, settled. -/

namespace Sys2Proof.Machine

/-- Settles O24: the byte written is read back. -/
theorem loadImmediate : Obligations.LoadImmediate := by
  refine fun x kk s => ⟨?_, _, rfl, State.getV_setV_same s x kk, rfl, unchangedBut_setV_advance⟩
  simp [decodeWord_eq_decodeProcedure, decodeProcedure]

/-- Settles O25: the sum is reduced modulo 256 on its way into a byte. -/
theorem addImmediateWraps : Obligations.AddImmediateWraps := by
  refine fun x kk s => ⟨?_, _, rfl, ?_, rfl, unchangedBut_setV_advance⟩
  · simp [decodeWord_eq_decodeProcedure, decodeProcedure]
  · rw [State.getV_advance, State.getV_setV_same, BitVec.toNat_ofNat]

/-- Settles O26: the operations on words are those on their bits. -/
theorem copyAndBitwise : Obligations.CopyAndBitwise := by
  refine fun x y s =>
    ⟨⟨decodeWord_encode (.ldReg x y), decodeWord_encode (.orReg x y), decodeWord_encode (.andReg x y),
      decodeWord_encode (.xorReg x y)⟩,
    ⟨_, rfl, State.getV_setV_same s x _, rfl, unchangedBut_setV_advance⟩,
    ⟨_, rfl, fun k _ => ?or, rfl, unchangedBut_setV_advance⟩,
    ⟨_, rfl, fun k _ => ?and, rfl, unchangedBut_setV_advance⟩,
    ⟨_, rfl, fun k _ => ?xor, rfl, unchangedBut_setV_advance⟩⟩ <;>
    rw [State.getV_advance, State.getV_setV_same]
  case or => exact BitVec.getLsbD_or
  case and => exact BitVec.getLsbD_and
  case xor => exact BitVec.getLsbD_xor

/-- Settles O27: the sum modulo 256, then its carry. -/
theorem addRegistersCarries : Obligations.AddRegistersCarries := by
  refine fun x y s => ⟨decodeWord_encode (.addReg x y), _, rfl, fun hx => ?_,
    State.getV_setResultAndFlag_flag.trans (flagByte_decide _), rfl, unchangedBut_setResultAndFlag_advance⟩
  rw [State.getV_advance, State.getV_setResultAndFlag_result hx, BitVec.toNat_ofNat]

/-- Settles O28: the difference Vx - Vy modulo 256, then no borrow. -/
theorem subtractSetsNoBorrow : Obligations.SubtractSetsNoBorrow := by
  refine fun x y s => ⟨decodeWord_encode (.subReg x y), _, rfl, fun hx => ?_,
    State.getV_setResultAndFlag_flag.trans (flagByte_decide _), rfl, unchangedBut_setResultAndFlag_advance⟩
  rw [State.getV_advance, State.getV_setResultAndFlag_result hx, difference_toNat]

/-- Settles O29: the difference Vy - Vx modulo 256, then no borrow. -/
theorem subtractReversedSetsNoBorrow : Obligations.SubtractReversedSetsNoBorrow := by
  refine fun x y s => ⟨decodeWord_encode (.subnReg x y), _, rfl, fun hx => ?_,
    State.getV_setResultAndFlag_flag.trans (flagByte_decide _), rfl, unchangedBut_setResultAndFlag_advance⟩
  rw [State.getV_advance, State.getV_setResultAndFlag_result hx, difference_toNat]

/-- Settles O30: half a byte is a byte, and the flag is the remainder. -/
theorem shiftRightByOne : Obligations.ShiftRightByOne := by
  refine fun x y s =>
    ⟨decodeWord_encode (.shr x y), _, rfl, fun hx => ?_, ?_, rfl, unchangedBut_setResultAndFlag_advance⟩
  · rw [State.getV_advance, State.getV_setResultAndFlag_result hx, BitVec.toNat_ofNat]
    exact Nat.mod_eq_of_lt ((Nat.div_le_self _ 2).trans_lt (s.getV x).isLt)
  · rw [State.getV_advance, State.getV_setResultAndFlag_flag, flagByte_toNat, lowBit_toNat]

/-- Settles O31: the double modulo 256, and the flag is its carry. -/
theorem shiftLeftByOne : Obligations.ShiftLeftByOne := by
  refine fun x y s =>
    ⟨decodeWord_encode (.shl x y), _, rfl, fun hx => ?_, ?_, rfl, unchangedBut_setResultAndFlag_advance⟩
  · rw [State.getV_advance, State.getV_setResultAndFlag_result hx, BitVec.toNat_ofNat]
  · rw [State.getV_advance, State.getV_setResultAndFlag_flag, flagByte_toNat, highBit_toNat]

/-- Settles O32: the write under the mask, after the draw is counted. -/
theorem randomByteUnderMask : Obligations.RandomByteUnderMask := by
  refine fun x kk s => ⟨?_, _, rfl, fun k _ => ?_, rfl, rfl,
    (((unchangedBut.refl _ s).countDraw (.inr (.inr rfl))).setV (.inl rfl)).advance (.inr (.inl rfl))⟩
  · simp [decodeWord_eq_decodeProcedure, decodeProcedure]
  · rw [State.getV_advance, State.getV_setV_same, BitVec.getLsbD_and]

end Sys2Proof.Machine
end

section
/-! Index arithmetic and the memory instructions (42_index_memory.md R130 to R136): their words, what I holds, how an
access ends on either side of the bounds check, and the stored digits read back. -/

namespace Sys2Proof

/-- R64, major F: the word decodes by its low byte alone. -/
theorem decodeWord_wordXkk_F (x : Nibble) (kk : Byte) :
    decodeWord (wordXkk 0xF#4 x kk) = decodeProcedureF (wordXkk 0xF#4 x kk) := by
  simp [decodeWord_eq_decodeProcedure, decodeProcedure]

end Sys2Proof

namespace Sys2Proof.Machine

variable {s : State}

/-- R130 to R132 share this end: I holds the number of the word written, and I and pc alone change. -/
theorem exists_setIndex_advance {w : Word} {n : Nat} (hw : w.toNat = n) :
    ∃ t, (.next (s.setIndex w).advance : Host.Outcome State Fault Refusal) = .next t ∧ t.index.toNat = n ∧
      t.pc = s.pc + 2#16 ∧ unchangedBut (fun p => p = .index ∨ p = .pc) s t :=
  ⟨_, rfl, hw, rfl, ((unchangedBut.refl _ s).setIndex (.inl rfl)).advance (.inr rfl)⟩

/-- R136: an access that leaves memory raises MemoryOutOfBounds(4096) and does nothing else. -/
theorem exists_overSpan_beyond {len : Nat} {d : State} (h : 4096 < dataBase s + len) :
    ∃ t, overSpan len s d = .next t ∧ haltedFrom .memoryOutOfBounds 4096#16 s t :=
  ⟨_, overSpan_beyond h, haltedFrom_raise _ _ s⟩

/-- A store of `n + 1` bytes from I[11:0] on writes pc and those bytes alone. -/
theorem unchangedBut_storeBytes_upTo {bs : List Byte} {n : Nat} (hlen : bs.length = n + 1) :
    unchangedBut (fun p => p = .pc ∨ ∃ a, p = .byte a ∧ dataBase s ≤ a ∧ a ≤ dataBase s + n) s
      (s.setMem (Memory.writeBytes s.mem (dataBase s) bs)).advance :=
  unchangedBut_storeBytes bs (fun a hl hu => .inr ⟨a, rfl, hl, by omega⟩) (.inl rfl)

/-- The digits as numbers: each fits in the byte that holds it. -/
theorem map_toNat_decimalDigits (b : Byte) :
    (decimalDigits b).map BitVec.toNat = [b.toNat / 100, b.toNat / 10 % 10, b.toNat % 10] := by
  have := b.isLt
  simp [decimalDigits]
  omega

/-- Each stored digit reads back at its place (R133). -/
theorem toNat_read_writeBytes_decimalDigits {m : Memory} {a : Nat} (b : Byte) (hm : Memory.wf m) (ha : a + 2 ≤ 4095)
    (k : Fin 3) :
    (Memory.read (Memory.writeBytes m a (decimalDigits b)) (a + k)).toNat =
      [b.toNat / 100, b.toNat / 10 % 10, b.toNat % 10][k] := by
  have hk : k.val < (decimalDigits b).length := k.isLt
  rw [Memory.read_writeBytes_inside k.val hm (show a + 3 ≤ 4096 by omega) hk]
  calc (decimalDigits b)[k.val].toNat
      = ((decimalDigits b).map BitVec.toNat)[k.val] := (List.getElem_map _).symm
    _ = _ := List.getElem_of_eq (map_toNat_decimalDigits b) hk

end Sys2Proof.Machine
end

section
/-! The statements of 42_index_memory.md, settled. -/

namespace Sys2Proof.Machine

/-- Settles O34: the two sides of the bounds check of three bytes, and the digits read back. -/
theorem storeDecimalDigits : Obligations.StoreDecimalDigits := by
  refine fun x s => ⟨?_, fun h => ?_, fun h => ?_⟩
  · simp [decodeWord_wordXkk_F, decodeProcedureF]
  · refine ⟨_, overSpan_inside (show dataBase s + 3 ≤ 4096 by omega), rfl, fun hm => ?_,
      unchangedBut_storeBytes_upTo rfl⟩
    have digit := toNat_read_writeBytes_decimalDigits (s.getV x) hm h
    exact ⟨digit 0, digit 1, digit 2⟩
  · exact exists_overSpan_beyond (by omega)

/-- Settles O35: the two sides of the bounds check of x + 1 bytes, and the registers read back. -/
theorem storeRegisters : Obligations.StoreRegisters := by
  refine fun x s => ⟨?_, fun h => ?_, fun h => ?_⟩
  · simp [decodeWord_wordXkk_F, decodeProcedureF]
  · exact ⟨_, exec_ldMemVx_inside h, rfl, fun hm _ hj => read_writeBytes_registersUpTo hm h hj,
      unchangedBut_storeBytes_upTo (length_registersUpTo x s)⟩
  · exact exists_overSpan_beyond (by omega)

/-- Settles O36: the two sides of the bounds check of x + 1 bytes; V0 to Vx come from memory. -/
theorem loadRegisters : Obligations.LoadRegisters := by
  refine fun x s => ⟨?_, fun h => ?_, fun h => ?_⟩
  · simp [decodeWord_wordXkk_F, decodeProcedureF]
  · refine ⟨_, overSpan_inside (by omega), rfl, fun j hj => (State.getV_loadRegisters s x j).trans (if_pos hj), ?_⟩
    exact ((unchangedBut.refl _ s).loadRegisters fun r hr => .inr ⟨r, rfl, hr⟩).advance (.inl rfl)
  · exact exists_overSpan_beyond (by omega)

/-- Settles O33: nnn, the sum modulo 4096 and Vx × 5 all fit in the 16 bits of I. -/
theorem indexArithmetic : Obligations.IndexArithmetic := by
  refine fun nnn x s => ⟨⟨?_, ?_, ?_⟩, exists_setIndex_advance (toNat_zeroExtend_addr nnn),
    exists_setIndex_advance ?sum, exists_setIndex_advance ?product⟩
  · simp [decodeWord_eq_decodeProcedure, decodeProcedure]
  · simp [decodeWord_wordXkk_F, decodeProcedureF]
  · simp [decodeWord_wordXkk_F, decodeProcedureF]
  case sum =>
    rw [BitVec.toNat_ofNat, dataBase_eq]
    omega
  case product =>
    rw [BitVec.toNat_ofNat]
    have := (s.getV x).isLt
    omega

end Sys2Proof.Machine
end

section
/-! The blit, cell by cell (43_display.md R141 to R143): the targets of one sprite are pairwise distinct, so each is
toggled once, the collision bit is read off the framebuffer before, and the blit is its own inverse. -/

namespace Sys2Proof.Machine

variable {g : Grid} {ox oy : Nat} {rows : List Byte} {cy : Fin 32} {cx : Fin 64}

/-! ### The targets are distinct (R143) -/

/-- The eight columns of a sprite row do not wrap onto each other: 8 ≤ 64. -/
theorem nodup_rowTargets (ox : Nat) (cy : Fin 32) (b : Byte) : (rowTargets ox cy b).Nodup := by
  refine List.Nodup.map_on (fun c hc c' hc' e => ?_) (List.nodup_range.filter _)
  have hlt := List.mem_range.mp (List.mem_filter.mp hc).1
  have hlt' := List.mem_range.mp (List.mem_filter.mp hc').1
  have column : (ox + c) % 64 = (ox + c') % 64 := congrArg (fun p => p.2.val) e
  omega

/-- The rows of a sprite of at most 32 do not wrap onto each other. -/
theorem nodup_spriteTargets (hlen : rows.length ≤ 32) : (spriteTargets ox oy rows).Nodup := by
  induction rows generalizing oy with
  | nil => exact List.nodup_nil
  | cons b rows ih =>
    rw [List.length_cons] at hlen
    refine List.nodup_append'.mpr ⟨nodup_rowTargets _ _ _, ih (by omega), fun p first later => ?_⟩
    obtain ⟨hcy, -⟩ := mem_rowTargets.mp first
    obtain ⟨r, -, hr, -, -, hrow, -⟩ := mem_spriteTargets.mp later
    have : p.1.val = oy % 32 := congrArg Fin.val hcy
    omega

/-! ### The fold over distinct cells -/

theorem cell_foldl_togglePixel_of_mem {ps : List (Fin 32 × Fin 64)} (hps : ps.Nodup) (h : (cy, cx) ∈ ps)
    (acc : Grid × Bool) : (ps.foldl togglePixel acc).1.cell cy cx = !acc.1.cell cy cx := by
  induction ps generalizing acc with
  | nil => cases h
  | cons p ps ih =>
    obtain ⟨hp, hps⟩ := List.nodup_cons.mp hps
    rw [List.foldl_cons]
    rcases List.mem_cons.mp h with rfl | h
    · rw [cell_foldl_togglePixel_of_not_mem hp, togglePixel, Grid.cell_toggle, if_pos ⟨rfl, rfl⟩]
    · have hne : ¬ (cy = p.1 ∧ cx = p.2) := fun ⟨hy, hx⟩ => hp (by rwa [hy, hx] at h)
      rw [ih hps h, togglePixel, Grid.cell_toggle, if_neg hne]

/-- A collision is seen in the framebuffer before the fold: no other pixel has touched the cell. -/
theorem hit_foldl_togglePixel {ps : List (Fin 32 × Fin 64)} (hps : ps.Nodup) (acc : Grid × Bool) :
    (ps.foldl togglePixel acc).2 = true ↔ acc.2 = true ∨ ∃ p ∈ ps, acc.1.cell p.1 p.2 = true := by
  induction ps generalizing acc with
  | nil => simp
  | cons p ps ih =>
    obtain ⟨hp, hps⟩ := List.nodup_cons.mp hps
    have untouched : ∀ q ∈ ps, (acc.1.toggle p.1 p.2).cell q.1 q.2 = acc.1.cell q.1 q.2 := fun q hq => by
      have hne : ¬ (q.1 = p.1 ∧ q.2 = p.2) := fun e => hp (Prod.ext e.1 e.2 ▸ hq)
      rw [Grid.cell_toggle, if_neg hne]
    rw [List.foldl_cons, ih hps, List.exists_mem_cons_iff, ← or_assoc]
    refine or_congr (Bool.or_eq_true _ _ ▸ Iff.rfl) (exists_congr fun q => and_congr_right fun hq => ?_)
    rw [togglePixel, untouched q hq]

/-! ### The blit -/

theorem cell_blit_of_target (hlen : rows.length ≤ 32) (h : spriteTarget ox oy rows cy cx) :
    (blit g ox oy rows).1.cell cy cx = !g.cell cy cx :=
  cell_foldl_togglePixel_of_mem (nodup_spriteTargets hlen) (mem_spriteTargets.mpr h) (g, false)

/-- R142: the collision bit. -/
theorem hit_blit (hlen : rows.length ≤ 32) :
    (blit g ox oy rows).2 = true ↔ ∃ cy cx, spriteTarget ox oy rows cy cx ∧ g.cell cy cx = true := by
  rw [blit, hit_foldl_togglePixel (nodup_spriteTargets hlen)]
  simp [mem_spriteTargets]

/-- R143: the blit is its own inverse. -/
theorem blit_blit (hlen : rows.length ≤ 32) : (blit (blit g ox oy rows).1 ox oy rows).1 = g := by
  refine Grid.ext_cell fun cy cx => ?_
  by_cases h : spriteTarget ox oy rows cy cx
  · rw [cell_blit_of_target hlen h, cell_blit_of_target hlen h, Bool.not_not]
  · rw [cell_blit_of_not_target h, cell_blit_of_not_target h]

/-- R143: the blit made again collides where the framebuffer was clear before the first. -/
theorem hit_blit_blit (hlen : rows.length ≤ 32) :
    (blit (blit g ox oy rows).1 ox oy rows).2 = true ↔
      ∃ cy cx, spriteTarget ox oy rows cy cx ∧ g.cell cy cx = false := by
  rw [hit_blit hlen]
  refine exists_congr fun cy => exists_congr fun cx => and_congr_right fun h => ?_
  rw [cell_blit_of_target hlen h, Bool.not_eq_true']

/-! ### Sprites with a pixel (R146) -/

theorem anyPixel_iff : anyPixel rows = true ↔ ∃ b ∈ rows, b ≠ 0#8 := by
  simp [anyPixel]

theorem exists_bit_of_ne_zero {b : Byte} (hb : b ≠ 0#8) : ∃ c, c < 8 ∧ b.getLsbD (7 - c) = true := by
  by_contra hnone
  refine hb (BitVec.eq_of_getLsbD_eq fun i hi => ?_)
  by_contra hbit
  refine hnone ⟨7 - i, by omega, ?_⟩
  rw [Nat.sub_sub_self (by omega)]
  simpa using hbit

theorem exists_spriteTarget : (∃ cy cx, spriteTarget ox oy rows cy cx) ↔ ∃ b ∈ rows, b ≠ 0#8 := by
  constructor
  · rintro ⟨cy, cx, r, c, hr, -, hbit, -⟩
    refine ⟨rows[r], List.getElem_mem hr, fun hzero => ?_⟩
    simp [hzero] at hbit
  · rintro ⟨b, hb, hne⟩
    obtain ⟨r, hr, rfl⟩ := List.getElem_of_mem hb
    obtain ⟨c, hc, hbit⟩ := exists_bit_of_ne_zero hne
    exact ⟨Fin.ofNat 32 (oy + r), Fin.ofNat 64 (ox + c), r, c, hr, hc, hbit, rfl, rfl⟩

/-- R146: the blit changes the framebuffer iff some byte of the sprite is nonzero. -/
theorem blit_ne_iff (hlen : rows.length ≤ 32) : (blit g ox oy rows).1 ≠ g ↔ ∃ b ∈ rows, b ≠ 0#8 := by
  rw [← exists_spriteTarget (ox := ox) (oy := oy)]
  constructor
  · intro hne
    by_contra hnone
    push Not at hnone
    exact hne (Grid.ext_cell fun cy cx => cell_blit_of_not_target (hnone cy cx))
  · rintro ⟨cy, cx, h⟩ heq
    have toggled := cell_blit_of_target (g := g) hlen h
    rw [heq] at toggled
    exact (Bool.eq_not_self _).mp toggled

end Sys2Proof.Machine
end

section
/-! DRW Vx,Vy,n where the sprite lies inside memory (43_display.md R145): the state it ends in, part by part. -/

namespace Sys2Proof.Machine

variable {s t : State} {x y n : Nibble}

/-! ### The flag and the sprite -/

theorem flagByte_eq_one {b : Bool} : flagByte b = 1#8 ↔ b = true := by cases b <;> decide

/-- A flag for `p` is the byte 1 where `p` holds and the byte 0 where it does not. -/
theorem flagByte_cases {b : Bool} {p : Prop} (h : b = true ↔ p) :
    flagByte b = 1#8 ∧ p ∨ flagByte b = 0#8 ∧ ¬ p := by
  cases b with
  | true => exact .inl ⟨rfl, h.mp rfl⟩
  | false => exact .inr ⟨rfl, fun hp => Bool.false_ne_true (h.mpr hp)⟩

theorem length_spriteRows_le (n : Nibble) (s : State) : (spriteRows n s).length ≤ 32 := by
  rw [spriteRows, Memory.length_readBytes]
  exact n.isLt.le.trans (by decide)

/-! ### The state after it -/

/-- The blit of DRW Vx,Vy,n in `s`. -/
def State.drawing (x y n : Nibble) (s : State) : Grid × Bool :=
  blit s.fb (originColumn s x) (originRow s y) (spriteRows n s)

/-- `s` after a DRW Vx,Vy,n that does not fault. -/
def State.draw (x y n : Nibble) (s : State) : State :=
  (((s.setFb (s.drawing x y n).1).setV 0xF#4 (flagByte (s.drawing x y n).2)).setDirty
    (s.dirty || anyPixel (spriteRows n s))).advance

theorem exec_drw_inside (h : dataBase s + n.toNat ≤ 4096) : exec (.drw x y n) s = .next (s.draw x y n) :=
  overSpan_inside h

theorem exec_drw_cases (h : exec (.drw x y n) s = .next t) :
    t = s.draw x y n ∨ t = s.raise .memoryOutOfBounds 4096#16 :=
  (overSpan_cases h).imp And.right And.right

@[simp] theorem State.draw_fb : (s.draw x y n).fb = (s.drawing x y n).1 := rfl
@[simp] theorem State.draw_dirty : (s.draw x y n).dirty = (s.dirty || anyPixel (spriteRows n s)) := rfl
@[simp] theorem dataBase_draw : dataBase (s.draw x y n) = dataBase s := rfl
@[simp] theorem spriteRows_draw (m : Nibble) : spriteRows m (s.draw x y n) = spriteRows m s := rfl

@[simp] theorem State.getV_draw_flag : (s.draw x y n).getV 0xF#4 = flagByte (s.drawing x y n).2 :=
  State.getV_setV_same _ _ _

theorem State.getV_draw_of_ne {r : Nibble} (h : r ≠ 0xF#4) : (s.draw x y n).getV r = s.getV r :=
  State.getV_setV_of_ne _ _ h

theorem originColumn_draw (hx : x ≠ 0xF#4) : originColumn (s.draw x y n) x = originColumn s x := by
  rw [originColumn, originColumn, State.getV_draw_of_ne hx]

theorem originRow_draw (hy : y ≠ 0xF#4) : originRow (s.draw x y n) y = originRow s y := by
  rw [originRow, originRow, State.getV_draw_of_ne hy]

/-- Where neither coordinate is VF the same DRW again draws the same sprite at the same origin. -/
theorem State.drawing_draw (hx : x ≠ 0xF#4) (hy : y ≠ 0xF#4) :
    (s.draw x y n).drawing x y n =
      blit (s.drawing x y n).1 (originColumn s x) (originRow s y) (spriteRows n s) := by
  rw [State.drawing, originColumn_draw hx, originRow_draw hy, spriteRows_draw, State.draw_fb]

/-! ### The frame -/

theorem unchangedBut.draw {c : Part → Prop} (h : unchangedBut c s t) (hf : c (.reg 0xF#4)) (hd : c .dirty)
    (hpc : c .pc)
    (hcell : ∀ cy cx, spriteTarget (originColumn t x) (originRow t y) (spriteRows n t) cy cx → c (.cell cy cx)) :
    unchangedBut c s (t.draw x y n) :=
  have blitted := h.setFb fun cy cx hc => cell_blit_of_not_target fun ht => hc (hcell cy cx ht)
  ((blitted.setV hf).setDirty hd).advance hpc

/-- A frame that lets every cell change is a frame without the cells where the framebuffer is as it was. -/
theorem unchangedBut.of_fb_eq {c : Part → Prop} (h : unchangedBut (fun p => c p ∨ ∃ cy cx, p = .cell cy cx) s t)
    (hfb : t.fb = s.fb) : unchangedBut c s t := by
  intro p hp
  by_cases hcell : ∃ cy cx, p = .cell cy cx
  · obtain ⟨cy, cx, rfl⟩ := hcell
    exact congrArg (Grid.cell · cy cx) hfb
  · exact h p (not_or.mpr ⟨hp, hcell⟩)

/-- R146: no instruction clears dirty. -/
theorem exec_keeps_dirty {i : Instr} (h : exec i s = .next t) (hs : s.dirty = true) : t.dirty = true := by
  by_cases hw : mayWrite i s .dirty
  · rcases hw with rfl | ⟨x, y, n, rfl⟩
    · cases h
      rfl
    · rcases exec_drw_cases h with rfl | rfl
      · rw [State.draw_dirty, hs, Bool.true_or]
      · exact hs
  · exact (exec_frame h .dirty hw).trans hs

end Sys2Proof.Machine
end

section
/-! The statements of 43_display.md, settled. -/

namespace Sys2Proof.Machine

/-- Settles O38: each target is toggled once, so VF tells of the cells set before; beyond memory the bounds check
raises. -/
theorem drawSprite : Obligations.DrawSprite := by
  refine fun x y n s => ⟨decodeWord_encode (.drw x y n), fun h => ?_, exists_overSpan_beyond⟩
  have hlen := length_spriteRows_le n s
  refine ⟨s.draw x y n, exec_drw_inside h, fun cy cx => cell_blit_of_target hlen, ?_, ?_, rfl, ?_⟩
  · rw [State.getV_draw_flag]
    refine (flagByte_cases (hit_blit hlen)).imp_right fun ⟨hzero, hnone⟩ => ⟨hzero, fun cy cx ht => ?_⟩
    exact Bool.eq_false_iff.mpr fun hset => hnone ⟨cy, cx, ht, hset⟩
  · rw [State.draw_dirty, Bool.or_eq_true, anyPixel_iff]
    rfl
  · exact (unchangedBut.refl _ s).draw (.inl rfl) (.inr (.inl rfl)) (.inr (.inr (.inl rfl)))
      fun cy cx ht => .inr (.inr (.inr ⟨cy, cx, rfl, ht⟩))

/-- Settles O39: the second DRW makes the same blit, which is its own inverse. -/
theorem drawingTwiceRestoresTheScreen : Obligations.DrawingTwiceRestoresTheScreen := by
  intro x y n s hx hy h
  have hlen := length_spriteRows_le n s
  have again := State.drawing_draw (s := s) (n := n) hx hy
  have restored : ((s.draw x y n).draw x y n).fb = s.fb := by
    rw [State.draw_fb, again]
    exact blit_blit hlen
  refine ⟨s.draw x y n, _, exec_drw_inside h, exec_drw_inside (dataBase_draw.symm ▸ h), restored, ?_, ?_⟩
  · rw [State.getV_draw_flag, flagByte_eq_one, again]
    exact hit_blit_blit hlen
  · refine unchangedBut.of_fb_eq (.draw (.draw (.refl _ s) ?flag ?dirty ?pc ?cell) ?flag ?dirty ?pc ?cell') restored
    all_goals simp

/-- Settles O40: DRW changes the framebuffer and sets dirty on the same condition on the sprite's bytes. -/
theorem dirtyFollowsTheScreen : Obligations.DirtyFollowsTheScreen := by
  refine ⟨fun s => ⟨_, rfl, rfl⟩, fun x y n s h => ?_, fun _ _ _ => exec_keeps_dirty⟩
  have changed : (s.draw x y n).fb ≠ s.fb ↔ ∃ b ∈ spriteRows n s, b ≠ 0#8 :=
    blit_ne_iff (length_spriteRows_le n s)
  refine ⟨s.draw x y n, exec_drw_inside h, changed, fun hne => ?_, fun heq => ?_⟩
  · rw [State.draw_dirty, anyPixel_iff.mpr (changed.mp hne), Bool.or_true]
  · have blank : anyPixel (spriteRows n s) = false :=
      Bool.eq_false_iff.mpr fun hany => changed.mpr (anyPixel_iff.mp hany) heq
    rw [State.draw_dirty, blank, Bool.or_false]

/-- Settles O37: the framebuffer cleared, dirty set, pc advanced. -/
theorem clearScreen : Obligations.ClearScreen :=
  fun s => ⟨decodeWord_encode .cls, _, rfl, Grid.cell_clear, rfl, rfl,
    (((unchangedBut.refl _ s).setFb fun cy cx hc => absurd (.inr (.inr ⟨cy, cx, rfl⟩)) hc).setDirty
      (.inl rfl)).advance (.inr (.inl rfl))⟩

end Sys2Proof.Machine
end

section
/-! The key wait and the latches (44_keypad_timers.md R150 to R153): the key an operand selects, a press of a key that
is up or down, and the step of a waiting machine with and without a recorded press. -/

namespace Sys2Proof.Machine

variable {s : State} {t x k : Nibble}

/-! ### Keys -/

/-- R150: the key is the low four bits of Vx. -/
theorem keyOf_eq (h : k.toNat = (s.getV x).toNat % 16) : keyOf s x = s.key[k.toNat]'k.isLt := by
  obtain rfl : k = lowNibble (s.getV x) := BitVec.eq_of_toNat_eq (h.trans (lowNibble_toNat _).symm)
  rfl

theorem State.setPressed_of_down (h : s.key[k.toNat]'k.isLt = true) : s.setPressed k = s := if_pos h

theorem State.setPressed_of_up (h : s.key[k.toNat]'k.isLt = false) :
    s.setPressed k = { s with key := s.key.set k.toNat true k.isLt, lk := k, lkv := true } :=
  if_neg (Bool.eq_false_iff.mp h)

/-! ### The step of a waiting machine (R153) -/

theorem step_of_waiting (hm : s.mode = .waitingForKey t) : step s = .next (s.stepWaiting t) := by
  simp only [step, hm]

theorem step_eq_self_of_no_press (hm : s.mode = .waitingForKey t) (hl : s.lkv = false) : step s = .next s := by
  rw [step_of_waiting hm, State.stepWaiting, if_neg (Bool.eq_false_iff.mp hl)]

/-- The state after the resuming step. -/
def State.resume (t : Nibble) (s : State) : State :=
  (((s.setV t (s.lk.zeroExtend 8)).setLkv false).setMode .running).advance

theorem step_of_press (hm : s.mode = .waitingForKey t) (hl : s.lkv = true) : step s = .next (s.resume t) := by
  rw [step_of_waiting hm, State.stepWaiting, if_pos hl, State.resume]

theorem State.getV_resume : (s.resume t).getV t = s.lk.zeroExtend 8 := State.getV_setV_same s t _

theorem unchangedBut_resume :
    unchangedBut (fun p => p = .reg t ∨ p = .lkv ∨ p = .pc ∨ p = .mode) s (s.resume t) :=
  ((((unchangedBut.refl _ s).setV (.inl rfl)).setLkv (.inr (.inl rfl))).setMode (.inr (.inr (.inr rfl)))).advance
    (.inr (.inr (.inl rfl)))

end Sys2Proof.Machine
end

section
/-! The timers (44_keypad_timers.md R154 to R156): only LD DT,Vx raises DT, and no instruction reads ST. -/

namespace Sys2Proof.Machine

variable {s t : State} {i : Instr}

/-! ### What raises DT (R155) -/

/-- A step that executes no instruction leaves the timers. -/
theorem step_keeps_timers_or_executes (h : step s = .next t) :
    t.dt = s.dt ∧ t.st = s.st ∨ ∃ i, executes s i ∧ exec i s = .next t := by
  rcases step_cases h with ⟨f, a, -, rfl⟩ | ⟨x, -, rfl⟩ | ⟨-, f, a, -, rfl⟩ | hi
  · exact .inl ⟨rfl, rfl⟩
  · rcases State.stepWaiting_cases x s with ⟨-, e⟩ | ⟨-, e⟩ <;> rw [e] <;> exact .inl ⟨rfl, rfl⟩
  · exact .inl ⟨rfl, rfl⟩
  · exact .inr hi

theorem exec_dt (h : exec i s = .next t) : t.dt = s.dt ∨ ∃ x, i = .ldDtVx x :=
  or_iff_not_imp_right.mpr (exec_frame h .dt)

theorem step_dt (h : step s = .next t) : t.dt = s.dt ∨ ∃ x, executes s (.ldDtVx x) ∧ t.dt = s.getV x := by
  rcases step_keeps_timers_or_executes h with ⟨e, -⟩ | ⟨i, hi, he⟩
  · exact .inl e
  · refine (exec_dt he).imp_right ?_
    rintro ⟨x, rfl⟩
    cases he
    exact ⟨x, hi, rfl⟩

@[simp] theorem State.setPressed_dt (k : Nibble) (s : State) : (s.setPressed k).dt = s.dt := by
  rcases State.setPressed_cases k s with ⟨-, e⟩ | ⟨-, e⟩ <;> rw [e]

@[simp] theorem State.load_dt (bytes : List Byte) (s : State) : (s.load bytes).1.dt = s.dt := by
  unfold State.load
  split <;> rfl

/-- Of the host's operations only the step raises DT: reset clears it, tick lowers it, the others leave it. -/
theorem apply_dt {o : HostOp} {m m' : Session} {r : OpResult} (h : o.apply m = .next (m', r)) :
    m'.state.dt.toNat ≤ m.state.dt.toNat ∨ o = .step ∧ step m.state = .next m'.state := by
  cases o with
  | step =>
    obtain ⟨t, e⟩ := exists_step_eq_next m.state
    cases (apply_step e).symm.trans h
    exact .inr ⟨rfl, e⟩
  | reset =>
    cases h
    exact .inl (Nat.zero_le _)
  | tick =>
    cases h
    exact .inl ((countDown_toNat _).le.trans (Nat.sub_le _ 1))
  | load bytes =>
    rw [HostOp.apply] at h
    split at h <;> cases h
    exact .inl (congrArg BitVec.toNat (State.load_dt bytes m.state)).le
  | setPressed k =>
    cases h
    exact .inl (congrArg BitVec.toNat (State.setPressed_dt k m.state)).le
  | setReleased | clearDirty | read =>
    cases h
    exact .inl le_rfl

/-! ### ST is not read (R156) -/

theorem State.skipIf_setSt (c : Bool) (b : Byte) (s : State) : (s.setSt b).skipIf c = (s.skipIf c).setSt b := by
  cases c <;> rfl

/-- The bounds check reads I alone, so both runs fault or both complete. -/
theorem overSpan_setSt (len : Nat) (b : Byte) (s d : State) :
    ∃ t b', overSpan len s d = .next t ∧ overSpan len (s.setSt b) (d.setSt b) = .next (t.setSt b') := by
  unfold overSpan
  rw [dataBase_setSt]
  split <;> exact ⟨_, b, rfl, rfl⟩

/-- Each instruction computes the same from a state with another ST, which it passes on or writes over. -/
theorem exec_setSt (i : Instr) (b : Byte) (s : State) :
    ∃ t b', exec i s = .next t ∧ exec i (s.setSt b) = .next (t.setSt b') := by
  cases i with
  | ldStVx x => exact ⟨_, s.getV x, rfl, rfl⟩
  | call nnn =>
    by_cases h : s.sp.val < 16
    · exact ⟨_, b, exec_call_of_lt h, exec_call_of_lt (s := s.setSt b) h⟩
    · exact ⟨_, b, exec_call_of_full h, exec_call_of_full (s := s.setSt b) h⟩
  | ret =>
    by_cases h : 0 < s.sp.val
    · exact ⟨_, b, exec_ret_of_pos h, exec_ret_of_pos (s := s.setSt b) h⟩
    · exact ⟨_, b, exec_ret_of_empty h, exec_ret_of_empty (s := s.setSt b) h⟩
  | drw | ldB | ldMemVx | ldVxMem => exact overSpan_setSt _ b s _
  | seImm | sneImm | seReg | sneReg | skp | sknp =>
    exact ⟨_, b, rfl, congrArg Host.Outcome.next (State.skipIf_setSt _ b s)⟩
  | _ => exact ⟨_, b, rfl, rfl⟩

end Sys2Proof.Machine
end

section
/-! The statements of 44_keypad_timers.md, settled. -/

namespace Sys2Proof.Machine

/-- Settles O14: with LKV = 0 the step is the identity, with LKV = 1 it resumes; a press of a key that is up sets LKV,
and the release leaves it set. -/
theorem waitingStepResumesOnAPress : Obligations.WaitingStepResumesOnAPress := by
  refine fun s t hm => ⟨fun hl => ?_, fun hl => ?_, fun k hup => ?_⟩
  · exact ⟨step_eq_self_of_no_press hm hl, State.stepResult_eq_waiting.mpr ⟨t, hm⟩⟩
  · exact ⟨_, step_of_press hm hl, State.getV_resume, rfl, rfl, rfl, rfl, unchangedBut_resume⟩
  · rw [State.setPressed_of_up hup]
    exact ⟨_, _, step_of_press hm rfl, step_of_press hm rfl, State.getV_resume, State.getV_resume, rfl, rfl⟩

/-- Settles O43: an instruction that writes DT is LD DT,Vx, and the host raises DT by a step alone. -/
theorem delayTimerInstructions : Obligations.DelayTimerInstructions := by
  refine ⟨fun x s => ⟨⟨?_, ?_⟩, ?_, ?_⟩, fun i s t h hlt => ?_, fun o m m' r h hlt => ?_⟩
  · simp [decodeWord_wordXkk_F, decodeProcedureF]
  · simp [decodeWord_wordXkk_F, decodeProcedureF]
  · exact ⟨_, rfl, State.getV_setV_same s x _, rfl, unchangedBut_setV_advance⟩
  · exact ⟨_, rfl, rfl, rfl, ((unchangedBut.refl _ s).setDt (.inl rfl)).advance (.inr rfl)⟩
  · exact (exec_dt h).resolve_left fun e => hlt.ne' (congrArg BitVec.toNat e)
  · obtain ⟨ho, hs⟩ := (apply_dt h).resolve_left hlt.not_ge
    exact ⟨ho, (step_dt hs).resolve_left fun e => hlt.ne' (congrArg BitVec.toNat e)⟩

/-- Settles O44: `exec_setSt` for every instruction. -/
theorem soundTimerInstruction : Obligations.SoundTimerInstruction := by
  refine ⟨fun x s => ⟨?_, ?_⟩, fun i s b => ?_⟩
  · simp [decodeWord_wordXkk_F, decodeProcedureF]
  · exact ⟨_, rfl, rfl, rfl, rfl, ((unchangedBut.refl _ s).setSt (.inl rfl)).advance (.inr rfl)⟩
  · obtain ⟨t, b', h, h'⟩ := exec_setSt i b s
    exact ⟨t, _, h, h', (unchangedBut.refl _ t).setSt rfl⟩

/-- Settles O41: both are skips, on the latch and on its negation. -/
theorem skipsOnAKey : Obligations.SkipsOnAKey := by
  intro x k s hk
  have latch := keyOf_eq hk
  refine ⟨⟨?_, ?_⟩, exists_skipIf (by rw [latch]), exists_skipIf ?_⟩
  · simp [decodeWord_eq_decodeProcedure, decodeProcedure, decodeProcedureE]
  · simp [decodeWord_eq_decodeProcedure, decodeProcedure, decodeProcedureE]
  · rw [latch]
    cases s.key[k.toNat]'k.isLt <;> rfl

/-- Settles O42: the wait begins with LKV = 0, and a press of a key that is down records nothing. -/
theorem waitForKeyParks : Obligations.WaitForKeyParks := by
  refine fun x s => ⟨?_, _, rfl, rfl, rfl, rfl, ?_, fun k hdown => ?_⟩
  · simp [decodeWord_wordXkk_F, decodeProcedureF]
  · exact ((unchangedBut.refl _ s).setMode (.inl rfl)).setLkv (.inr rfl)
  · rw [State.setPressed_of_down (s := (s.setMode (.waitingForKey x)).setLkv false) hdown]
    exact step_eq_self_of_no_press (t := x) rfl rfl

end Sys2Proof.Machine
end

section
/-! Faults (60_exceptions.md R160 to R167): a cause that stands in a Running machine makes the step raise its fault,
and a step that halts has raised one whose cause stood. -/

namespace Sys2Proof.Machine

variable {s t : State} {i : Instr} {f : Fault} {a : Word}

/-- R162: an instruction whose bytes leave memory faults before it does anything. The others touch no byte, and I[11:0]
itself is inside memory. -/
theorem exec_of_span_beyond (h : 4096 < dataBase s + dataLength i) :
    exec i s = .next (s.raise .memoryOutOfBounds 4096#16) := by
  cases i with
  | drw | ldB | ldMemVx | ldVxMem => exact overSpan_beyond h
  | _ => exact absurd (dataBase_lt s) h.not_gt

theorem step_of_illegalWord {w : Word} (hm : s.mode = .running) (hf : fetch s = .word w)
    (hw : illegalWord w = true) : step s = .next (s.raise .unrecognizedOpcode w) := by
  simp only [step, hm, hf, decodeWord_eq_none_iff.mpr hw]

theorem step_of_faultStands (hm : s.mode = .running) (h : faultStands s f a) : step s = .next (s.raise f a) := by
  cases f with
  | unrecognizedOpcode =>
    obtain ⟨hf, hw⟩ := h
    exact step_of_illegalWord hm hf hw
  | memoryOutOfBounds =>
    rcases h with hf | ⟨rfl, w, i, hf, hw, hspan⟩
    · exact step_of_fetch_outOfBounds hm hf
    · exact (step_of_executes ⟨hm, w, hf, hw⟩).trans (exec_of_span_beyond hspan)
  | stackOverflow =>
    obtain ⟨rfl, hsp, w, nnn, hf, hw⟩ := h
    exact (step_of_executes ⟨hm, w, hf, hw⟩).trans (exec_call_of_full (by omega))
  | stackUnderflow =>
    obtain ⟨rfl, hsp, w, hf, hw⟩ := h
    exact (step_of_executes ⟨hm, w, hf, hw⟩).trans (exec_ret_of_empty (by omega))
  | romTooLarge => exact h.elim

/-- Of the ends of a step of a Running machine, only a raised fault is in mode Halted. -/
theorem step_halts (hm : s.mode = .running) (h : step s = .next t) (ht : t.mode = .halted f a) :
    faultStands s f a ∧ t = s.raise f a := by
  have raised : ∃ f' a', faultStands s f' a' ∧ t = s.raise f' a' := by
    rcases step_cases h with ⟨_, _, e, -⟩ | ⟨_, e, -⟩ | ⟨-, hraise⟩ | ⟨i, hi, he⟩
    · exact nomatch hm.symm.trans e
    · exact nomatch hm.symm.trans e
    · exact hraise
    · rcases exec_ends hi he with hraise | ⟨x, -, rfl⟩ | hmode
      · exact hraise
      · exact nomatch ht
      · exact nomatch hm.symm.trans (hmode.symm.trans ht)
  obtain ⟨f', a', hf, rfl⟩ := raised
  cases ht
  exact ⟨hf, rfl⟩

end Sys2Proof.Machine
end

section
/-! The host's operations (60_exceptions.md R172 to R178): what writes ST, what a load reports and where its bytes
stand, and the flat index of a cell. -/

namespace Sys2Proof.Machine

variable {s t : State} {i : Instr} {m : Session} {bytes : List Byte}

/-! ### What writes ST (R174) -/

theorem exec_st (h : exec i s = .next t) : t.st = s.st ∨ ∃ x, i = .ldStVx x :=
  or_iff_not_imp_right.mpr (exec_frame h .st)

theorem step_st (h : step s = .next t) : t.st = s.st ∨ ∃ x, executes s (.ldStVx x) := by
  rcases step_keeps_timers_or_executes h with ⟨-, e⟩ | ⟨i, hi, he⟩
  · exact .inl e
  · refine (exec_st he).imp_right ?_
    rintro ⟨x, rfl⟩
    exact ⟨x, hi⟩

/-! ### load (R172, R166) -/

theorem apply_load_of_fits (hs : m.stepped = false) (h : bytes.length ≤ 3584) :
    (HostOp.load bytes).apply m = .next (⟨m.state.placeRom bytes, false⟩, .load .ok) := by
  rw [HostOp.apply, if_neg (Bool.eq_false_iff.mp hs), State.load, if_neg h.not_gt, hs]

theorem apply_load_of_too_large (hs : m.stepped = false) (h : 3584 < bytes.length) :
    (HostOp.load bytes).apply m = .next (m, .load (.romTooLarge bytes.length)) := by
  rw [HostOp.apply, if_neg (Bool.eq_false_iff.mp hs), State.load, if_pos h]

theorem apply_load_of_stepped (hs : m.stepped = true) :
    (HostOp.load bytes).apply m = .refused .loadNotDefined := if_pos hs

theorem unchangedBut_placeRom :
    unchangedBut (fun p => ∃ a, p = .byte a ∧ 0x200 ≤ a ∧ a < 0x200 + bytes.length) s (s.placeRom bytes) :=
  (unchangedBut.refl _ s).setMem fun a ha => Memory.read_writeBytes_outside <| by
    by_contra inside
    exact ha ⟨a, rfl, by omega, by omega⟩

/-! ### The flat index of a cell (43_display.md R140) -/

theorem State.flatCell_eq_cell (s : State) (cy : Fin 32) (cx : Fin 64) :
    s.flatCell ⟨cy.val * 64 + cx.val, by omega⟩ = s.fb.cell cy cx := by
  have row : (cy.val * 64 + cx.val) / 64 = cy.val := by omega
  have column : (cy.val * 64 + cx.val) % 64 = cx.val := by omega
  simp [State.flatCell, Grid.cell, row, column]

end Sys2Proof.Machine
end

section
/-! The statements of 60_exceptions.md, settled. -/

namespace Sys2Proof.Machine

/-- Settles O9: a cause that stands decides the step, and a step that halts shows the cause. -/
theorem stepFaultsExactlyWhenTheCauseStands : Obligations.StepFaultsExactlyWhenTheCauseStands := by
  intro s hm
  obtain ⟨t, h⟩ := exists_step_eq_next s
  have halts {f a} (hf : faultStands s f a) : haltedFrom f a s t := by
    cases (step_of_faultStands hm hf).symm.trans h
    exact haltedFrom_raise f a s
  exact ⟨t, h, fun f a => ⟨⟨fun ht => (step_halts hm h ht).1, fun hf => (halts hf).1⟩, halts⟩⟩

/-- Settles O10: the halted state is the state before with the fault raised. -/
theorem faultsArePrecise : Obligations.FaultsArePrecise := by
  intro s t f a hm h ht
  obtain ⟨-, rfl⟩ := step_halts hm h ht
  exact ⟨haltedFrom_raise f a s, State.stepResult_eq_fault.mpr ht⟩

/-- Settles O47: tick by its two counts, the instructions by their frame. -/
theorem tickCountsDown : Obligations.TickCountsDown := by
  refine ⟨fun m => ?_, fun _ _ _ h => ⟨exec_dt h, exec_st h⟩, fun _ _ h => ⟨?_, step_st h⟩⟩
  · exact ⟨_, rfl, countDown_toNat _, countDown_toNat _, (unchangedBut.refl _ m.state).tick (.inl rfl) (.inr rfl)⟩
  · exact (step_dt h).imp_right fun ⟨x, hx, _⟩ => ⟨x, hx⟩

/-- Settles O50: the bytes of a ROM that fits end at 4096 or below, so each reads back. -/
theorem loadPlacesTheRom : Obligations.LoadPlacesTheRom := by
  refine fun m bytes => ⟨fun hs h => ?_, apply_load_of_too_large, apply_load_of_stepped⟩
  refine ⟨_, apply_load_of_fits hs h, fun hwf j hj => ?_, unchangedBut_placeRom⟩
  exact Memory.read_writeBytes_inside j hwf (by omega) hj

/-- Settles O48: a press by the latch as it was, a release by the latch it writes. -/
theorem keyOperationsDetectEdges : Obligations.KeyOperationsDetectEdges := by
  refine fun m k => ⟨fun hup => ?_, fun hdown => ?_, ?_⟩
  · have frame := (unchangedBut.refl (fun p => p = .key k ∨ p = .lk ∨ p = .lkv) m.state).setPressed (.inl rfl)
      (.inr (.inl rfl)) (.inr (.inr rfl))
    rw [State.setPressed_of_up hup] at frame
    rw [HostOp.apply, State.setPressed_of_up hup]
    exact ⟨_, rfl, Vector.getElem_set_self _, rfl, rfl, frame⟩
  · rw [HostOp.apply, State.setPressed_of_down hdown]
  · exact ⟨_, rfl, Vector.getElem_set_self _, (unchangedBut.refl _ m.state).setReleased rfl⟩

/-- Settles O49: dirty alone is cleared, a read keeps the session, and division by 64 takes a flat index apart. -/
theorem readerClearsDirtyAndReads : Obligations.ReaderClearsDirtyAndReads := fun m =>
  ⟨⟨_, rfl, rfl, (unchangedBut.refl _ m.state).clearDirty rfl⟩, rfl, m.state.flatCell_eq_cell⟩

end Sys2Proof.Machine
end

section
/-! Reset and the mode (70_reset_and_hazards.md R190): the state a reset answers, and the operations that leave the
mode alone. -/

namespace Sys2Proof.Machine

/-- Of the state before a reset, the count of draws alone goes on. -/
theorem unchangedBut_hostReset (s : State) : unchangedBut (fun p => p = .draws) State.reset s.hostReset := by
  intro p hp
  cases p with
  | draws => exact absurd rfl hp
  | _ => rfl

/-- Of the host's operations, only reset and step write the mode. -/
theorem apply_mode {o : HostOp} {m m' : Session} {r : OpResult} (hr : o ≠ .reset) (hs : o ≠ .step)
    (h : o.apply m = .next (m', r)) : m'.state.mode = m.state.mode := by
  cases o with
  | reset => exact absurd rfl hr
  | step => exact absurd rfl hs
  | load bytes =>
    rw [HostOp.apply] at h
    split at h <;> cases h
    exact State.load_mode bytes m.state
  | setPressed k =>
    cases h
    exact State.setPressed_mode k m.state
  | tick | setReleased | clearDirty | read =>
    cases h
    rfl

end Sys2Proof.Machine
end

section
/-! The statement of 70_reset_and_hazards.md, settled. -/

namespace Sys2Proof.Machine

/-- Settles O52: a reset carries over the count of draws alone; a step of a halted machine is the identity, and the
other operations do not write the mode. -/
theorem resetFromAnyState : Obligations.ResetFromAnyState := by
  refine ⟨fun m => ⟨m.state.hostReset, rfl, unchangedBut_hostReset m.state⟩, fun o m m' r f a hm hr h => ?_⟩
  by_cases hs : o = .step
  · subst hs
    cases (apply_step_of_halted hm).symm.trans h
    exact hm
  · exact (apply_mode hr hs h).trans hm

end Sys2Proof.Machine
end
